-- ==== Sys2Proof/Word.lean ====
section
/-! DEFINITION. The word types of the block: bytes of a frame (R60) and 32-bit bus words (R64). -/

namespace Sys2Proof

/-- One byte of a frame or a buffer (R60). -/
abbrev Byte := BitVec 8

/-- One 32-bit word of the host register space (R60, R64). -/
abbrev Word := BitVec 32

end Sys2Proof
end

