-- ==== Sys2Proof/Config.lean ====
section
/-! DEFINITION. The constants the spec fixes (R6, R7, R23, R25), each named once because the numeric literals are unaudited
(I1), and what it leaves open: the input ports of a cycle (R5, D40) and the clock frequency (R10). -/

namespace Sys2Proof

/-- The input ports of the block in one cycle (R22). `clk` is the step itself. -/
structure Pins where
  /-- synchronous reset, active high (R240) -/
  rst : Bool
  /-- host bus byte address -/
  busAddr : BitVec 8
  /-- host write strobe -/
  busWr : Bool
  /-- host read strobe; it only qualifies the read data (R22) -/
  busRd : Bool
  /-- host write data -/
  busWdata : Word
  /-- the link takes the offered byte in this cycle (R151) -/
  txReady : Bool
  /-- byte delivered by the link -/
  rxData : Byte
  /-- a byte is delivered in this cycle (R153) -/
  rxValid : Bool
  /-- transport fault or transport closed (R156) -/
  lnkErr : Bool
deriving DecidableEq, Repr, Inhabited

namespace Config

/-- Bytes of a frame (R6, R80). -/
def frameLen : Nat := 26

/-- The sync byte, byte 0 of a frame (R6). -/
def sync : Byte := 0xAA

/-- Bytes before the payload: sync, device address, sub-address (R6). -/
def headerLen : Nat := 3

/-- Bytes of payload and padding in a frame (R6). -/
def payloadMax : Nat := 22

/-- The index of the checksum byte (R6). -/
def checksumAt : Nat := 25

/-- The acknowledgement code that means success (R6, R136). -/
def ackSuccess : Byte := 0x80

/-- The two values of the state byte that mean OFF (R6, R133). -/
def stateOff : List Byte := [0, 128]

/-- The ID register's constant (R25). -/
def idWord : Word := 0x50530001

/-- The reset value of RAMP_STEP (R35). -/
def defaultRampStep : Word := 500

/-- First byte address of TXBUF (R49). -/
def txBase : Nat := 0x80

/-- First byte address of RXBUF (R50). -/
def rxBase : Nat := 0xA0

/-- First byte address of PAYBUF (R51). -/
def payBase : Nat := 0xC0

/-- FREE VALUE (log 1): the input ports in each cycle, the host's accesses and the link's behaviour. The spec determines
none of it (R5, D40): the link is an oracle and the host an agent outside the block. -/
opaque portsAt : Nat → Pins

/-- OPEN parameter (R10): the clock frequency in cycles per second; no rule depends on it. The spec gives it no type.
DESIGN CHOICE (log 9): a rational number, which also admits 0 and negative values; safe, since nothing is known of it. -/
opaque fClk : Rat

/-- The seconds that a count of cycles lasts (R10, R175, R249); a number of seconds only where `fClk` is positive (log 9). -/
def secondsOfCycles (n : Nat) : Rat := (n : Rat) / fClk

end Config

end Sys2Proof
end

