-- ==== Sys2Proof/Syntax.lean ====
section
/-! DEFINITION. The block's instruction set (R2): the 12 commands of PSFC-CMD version 1 and the 7 frame formats of the wire
protocol, one constructor of `Instr` per row of spec/opcode_table.json. -/

namespace Sys2Proof

/-- The closed set of sub-addresses (R7). -/
inductive SubAddr where
  | remoteControl
  | outputEnable
  | maxVoltage
  | voltageSetpoint
  | currentLimit
  | statusQuery
deriving DecidableEq, Repr

/-- The byte that selects a sub-address in a frame (R7). -/
def SubAddr.code : SubAddr → Byte
  | .remoteControl => 0x20
  | .outputEnable => 0x21
  | .maxVoltage => 0x22
  | .voltageSetpoint => 0x23
  | .currentLimit => 0x24
  | .statusQuery => 0x26

/-- The sub-addresses in the order of R7's SUBSET. -/
def SubAddr.all : List SubAddr :=
  [.remoteControl, .outputEnable, .maxVoltage, .voltageSetpoint, .currentLimit, .statusQuery]

/-- The sub-address a byte stands for; none outside SUBSET (R7: 0x25 is not in the set). -/
def SubAddr.ofByte (b : Byte) : Option SubAddr :=
  SubAddr.all.find? (fun a => a.code == b)

/-- The write-type sub-addresses (R7's WRITE_SUBS). -/
def SubAddr.isWrite : SubAddr → Bool
  | .remoteControl => true
  | .outputEnable => true
  | .maxVoltage => true
  | .voltageSetpoint => true
  | .currentLimit => true
  | .statusQuery => false

/-- The buffer a command word's BUF bit selects (R84: 0 RXBUF, 1 TXBUF). -/
inductive BufSel where
  | rx
  | tx
deriving DecidableEq, Repr

/-- The instructions: R86's commands, then the frames of R80, R83 and R88. A command's fields that its operation ignores are
no part of it (R84); the CMD register keeps the whole word (R26). -/
inductive Instr where
  /-- ENC_RAW (R113), operand SUB -/
  | encRaw (sub : Byte)
  /-- ENC_NUM (R114), operand SUB -/
  | encNum (sub : Byte)
  /-- DECODE (R132) -/
  | decode
  /-- XFER (R159) -/
  | xfer
  /-- REMOTE (R191) -/
  | remote
  /-- OUTPUT (R192) -/
  | output
  /-- SET_MAXV (R193) -/
  | setMaxv
  /-- SET_IMAX (R194) -/
  | setImax
  /-- STATUS (R195) -/
  | status
  /-- RAMP (R170) -/
  | ramp
  /-- VALIDATE (R116), operand BUF -/
  | validate (buf : BufSel)
  /-- UNPACK (R134), operands BUF, OFF, WID -/
  | unpack (buf : BufSel) (off wid : Nat)
  /-- the command frame 0x20 (R80, R88) -/
  | frameRemoteControl (dev : Byte)
  /-- the command frame 0x21 -/
  | frameOutputEnable (dev : Byte)
  /-- the command frame 0x22 -/
  | frameMaxVoltage (dev : Byte)
  /-- the command frame 0x23 -/
  | frameVoltageSetpoint (dev : Byte)
  /-- the command frame 0x24 -/
  | frameCurrentLimit (dev : Byte)
  /-- the command frame 0x26 -/
  | frameStatusQuery (dev : Byte)
  /-- a well-formed response frame (R82, R83) -/
  | frameResponse (dev sub : Byte)
deriving DecidableEq, Repr

/-- Where an instruction stands when it is executed: a command in the CMD register (R26), a command frame in TXBUF, a
response frame in RXBUF (R60). -/
inductive Place where
  | command
  | transmit
  | receive
deriving DecidableEq, Repr

/-- The place of each instruction. -/
def Instr.place : Instr → Place
  | .encRaw _ => .command
  | .encNum _ => .command
  | .decode => .command
  | .xfer => .command
  | .remote => .command
  | .output => .command
  | .setMaxv => .command
  | .setImax => .command
  | .status => .command
  | .ramp => .command
  | .validate _ => .command
  | .unpack _ _ _ => .command
  | .frameRemoteControl _ => .transmit
  | .frameOutputEnable _ => .transmit
  | .frameMaxVoltage _ => .transmit
  | .frameVoltageSetpoint _ => .transmit
  | .frameCurrentLimit _ => .transmit
  | .frameStatusQuery _ => .transmit
  | .frameResponse _ _ => .receive

/-- The OP of a command (R86); a frame has none. -/
def Instr.opcode : Instr → Option Nat
  | .encRaw _ => some 1
  | .encNum _ => some 2
  | .decode => some 3
  | .xfer => some 4
  | .remote => some 5
  | .output => some 6
  | .setMaxv => some 7
  | .setImax => some 8
  | .status => some 9
  | .ramp => some 10
  | .validate _ => some 11
  | .unpack _ _ _ => some 12
  | .frameRemoteControl _ => none
  | .frameOutputEnable _ => none
  | .frameMaxVoltage _ => none
  | .frameVoltageSetpoint _ => none
  | .frameCurrentLimit _ => none
  | .frameStatusQuery _ => none
  | .frameResponse _ _ => none

/-- The command frame of a sub-address and a device address (R88). -/
def Instr.ofFrame (a : SubAddr) (dev : Byte) : Instr :=
  match a with
  | .remoteControl => .frameRemoteControl dev
  | .outputEnable => .frameOutputEnable dev
  | .maxVoltage => .frameMaxVoltage dev
  | .voltageSetpoint => .frameVoltageSetpoint dev
  | .currentLimit => .frameCurrentLimit dev
  | .statusQuery => .frameStatusQuery dev

end Sys2Proof
end

