-- ==== Sys2Proof/WellFormed.lean ====
section
/-! DEFINITION. Which terms of `Instr` an encoding holds: R91's operand check (an operand fits its field). The operands whose
type is a byte fit by their type; UNPACK's OFF and WID are numbers (R134 adds them) and are checked here. A value that fits
but that the block refuses when it runs (WID = 0) is well formed. -/

namespace Sys2Proof

/-- R91: an operand that does not fit its field is refused (OFF at most 31, WID at most 7). -/
def Instr.wellFormed : Instr → Bool
  | .encRaw _ => true
  | .encNum _ => true
  | .decode => true
  | .xfer => true
  | .remote => true
  | .output => true
  | .setMaxv => true
  | .setImax => true
  | .status => true
  | .ramp => true
  | .validate _ => true
  | .unpack _ off wid => decide (off ≤ 31) && decide (wid ≤ 7)
  | .frameRemoteControl _ => true
  | .frameOutputEnable _ => true
  | .frameMaxVoltage _ => true
  | .frameVoltageSetpoint _ => true
  | .frameCurrentLimit _ => true
  | .frameStatusQuery _ => true
  | .frameResponse _ _ => true

end Sys2Proof
end

