-- ==== Sys2Proof/Decode.lean ====
section
/-! DEFINITION. Decoding, total on any bytes (R84 to R88), and the encoder. The command word's fields are pulled out here,
once; a word or a header that is no instruction is rejected by the name of the check that fails. -/

namespace Sys2Proof

/-- Why bytes are no instruction. -/
inductive DecodeError where
  /-- OP is 0x0, 0xD, 0xE or 0xF (R87, checked first) -/
  | badOp
  /-- bits 7:5 or 31:24 of a command word are not all 0 (R87) -/
  | rsvdBits
  /-- a command word is not four bytes, or a frame is shorter than its header -/
  | badLength
  /-- byte 0 of a frame is not the sync byte (R82, R88) -/
  | notSync
  /-- byte 2 of a command frame is outside SUBSET (R7, R88) -/
  | notInSubset
deriving DecidableEq, Repr

/-- A word's bytes, bits 7:0 first (R63). -/
def bytesOfWord (w : Word) : List Byte :=
  [w.extractLsb' 0 8, w.extractLsb' 8 8, w.extractLsb' 16 8, w.extractLsb' 24 8]

/-- The word of four bytes, the first in bits 7:0 (R63). -/
def wordOfBytes (b0 b1 b2 b3 : Byte) : Word := b3 ++ b2 ++ b1 ++ b0

/-- OP, bits 3:0 of a command word (R84). -/
def cmdOp (w : Word) : BitVec 4 := w.extractLsb' 0 4

/-- BUF, bit 4 of a command word (R84: 0 RXBUF, 1 TXBUF). -/
def cmdBuf (w : Word) : BufSel := if w.extractLsb' 4 1 = 1 then .tx else .rx

/-- SUB, bits 15:8 of a command word (R84). -/
def cmdSub (w : Word) : Byte := w.extractLsb' 8 8

/-- OFF, bits 20:16 of a command word (R84). -/
def cmdOff (w : Word) : Nat := (w.extractLsb' 16 5).toNat

/-- WID, bits 23:21 of a command word (R84). -/
def cmdWid (w : Word) : Nat := (w.extractLsb' 21 3).toNat

/-- Whether the reserved bits 7:5 and 31:24 of a command word are all 0 (R84). -/
def cmdReservedClear (w : Word) : Bool :=
  w.extractLsb' 5 3 == 0 && w.extractLsb' 24 8 == 0

/-- Decoding a command word, in R85's order: OP first, then the reserved bits. -/
def decodeCommand (w : Word) : Except DecodeError Instr :=
  let op := (cmdOp w).toNat
  if op = 0 ∨ 12 < op then .error .badOp
  else if cmdReservedClear w = false then .error .rsvdBits
  else if op = 1 then .ok (.encRaw (cmdSub w))
  else if op = 2 then .ok (.encNum (cmdSub w))
  else if op = 3 then .ok .decode
  else if op = 4 then .ok .xfer
  else if op = 5 then .ok .remote
  else if op = 6 then .ok .output
  else if op = 7 then .ok .setMaxv
  else if op = 8 then .ok .setImax
  else if op = 9 then .ok .status
  else if op = 10 then .ok .ramp
  else if op = 11 then .ok (.validate (cmdBuf w))
  else .ok (.unpack (cmdBuf w) (cmdOff w) (cmdWid w))

/-- The command frame of a header in TXBUF (R88). -/
def decodeCommandFrame (b0 dev b2 : Byte) : Except DecodeError Instr :=
  if b0 = Config.sync then
    match SubAddr.ofByte b2 with
    | some a => .ok (Instr.ofFrame a dev)
    | none => .error .notInSubset
  else .error .notSync

/-- The response frame of a header in RXBUF (R82, R88): its device address and sub-address are never refused. -/
def decodeResponseFrame (b0 dev sub : Byte) : Except DecodeError Instr :=
  if b0 = Config.sync then .ok (.frameResponse dev sub) else .error .notSync

/-- The decoder: the bytes of an instruction at its place. A frame is known by its first three bytes (R88). -/
def decode : Place → List Byte → Except DecodeError Instr
  | .command, [b0, b1, b2, b3] => decodeCommand (wordOfBytes b0 b1 b2 b3)
  | .command, _ => .error .badLength
  | .transmit, b0 :: b1 :: b2 :: _ => decodeCommandFrame b0 b1 b2
  | .transmit, _ => .error .badLength
  | .receive, b0 :: b1 :: b2 :: _ => decodeResponseFrame b0 b1 b2
  | .receive, _ => .error .badLength

/-- The BUF bit of a selection (R84). -/
def BufSel.bit : BufSel → BitVec 1
  | .rx => 0
  | .tx => 1

/-- A command word of its fields, the reserved bits 0 (R84). -/
def commandWord (op : BitVec 4) (buf : BitVec 1) (sub : Byte) (off : BitVec 5) (wid : BitVec 3) : Word :=
  0#8 ++ wid ++ off ++ sub ++ 0#3 ++ buf ++ op

/-- The header word of a frame (R88): byte 0 in bits 7:0. -/
def headerWord (b0 b1 b2 : Byte) : BitVec 24 := b2 ++ b1 ++ b0

/-- The encoder (R84, R86, R88, R91): the four bytes of a command word, an ignored field 0; the three header bytes of a
frame. -/
def encode : Instr → List Byte
  | .encRaw sub => bytesOfWord (commandWord 1 0 sub 0 0)
  | .encNum sub => bytesOfWord (commandWord 2 0 sub 0 0)
  | .decode => bytesOfWord (commandWord 3 0 0 0 0)
  | .xfer => bytesOfWord (commandWord 4 0 0 0 0)
  | .remote => bytesOfWord (commandWord 5 0 0 0 0)
  | .output => bytesOfWord (commandWord 6 0 0 0 0)
  | .setMaxv => bytesOfWord (commandWord 7 0 0 0 0)
  | .setImax => bytesOfWord (commandWord 8 0 0 0 0)
  | .status => bytesOfWord (commandWord 9 0 0 0 0)
  | .ramp => bytesOfWord (commandWord 10 0 0 0 0)
  | .validate buf => bytesOfWord (commandWord 11 buf.bit 0 0 0)
  | .unpack buf off wid => bytesOfWord (commandWord 12 buf.bit 0 (BitVec.ofNat 5 off) (BitVec.ofNat 3 wid))
  | .frameRemoteControl dev => [Config.sync, dev, SubAddr.remoteControl.code]
  | .frameOutputEnable dev => [Config.sync, dev, SubAddr.outputEnable.code]
  | .frameMaxVoltage dev => [Config.sync, dev, SubAddr.maxVoltage.code]
  | .frameVoltageSetpoint dev => [Config.sync, dev, SubAddr.voltageSetpoint.code]
  | .frameCurrentLimit dev => [Config.sync, dev, SubAddr.currentLimit.code]
  | .frameStatusQuery dev => [Config.sync, dev, SubAddr.statusQuery.code]
  | .frameResponse dev sub => [Config.sync, dev, sub]

/-- The bytes of a frame whose first bits are `w` and whose other bytes are 0. -/
def frameOfHeader (w : Nat) : List Byte :=
  [BitVec.ofNat 8 w, BitVec.ofNat 8 (w / 256), BitVec.ofNat 8 (w / 65536)] ++ List.replicate 23 0

/-- The instruction read from the bits of a row of spec/opcode_table.json: a 32-bit row is a command word, a row of up to 24
bits a frame's header word. A header that is a command frame's is read as that frame, else as a response's (log 2). -/
def decodeTableWord (nbits w : Nat) : Option Instr :=
  if nbits ≤ 24 then
    match decode .transmit (frameOfHeader (w % 2 ^ nbits)) with
    | .ok i => some i
    | .error _ => (decode .receive (frameOfHeader (w % 2 ^ nbits))).toOption
  else if nbits ≤ 32 then (decode .command (bytesOfWord (BitVec.ofNat 32 (w % 2 ^ nbits)))).toOption
  else none

end Sys2Proof
end

