-- ==== Sys2Proof/Machine/State.lean ====
section
/-! DEFINITION. The state of the block: every register of R23, R58 and R59, the three frame buffers (R60), and the model's own
two fields that carry the input ports. Also the reasons a step can stop (there is none in this hardware) and the state after
reset (R240). -/

namespace Sys2Proof.Machine

/-- Reasons a step faults: none. The spec names no event that stops the block: an error ends a command with an error record
and the block goes on (R212, R216, R220), and no bus access traps (R61, R64). Nobody raises one, which is safe. -/
inductive Fault where
deriving DecidableEq, Repr

/-- Reasons an instruction has no meaning. -/
inductive Refusal where
  /-- Raised by an arm of `exec` whose instruction is not modelled yet; safe. No arm raises it. -/
  | notModelled (mnemonic : String)
deriving DecidableEq, Repr

/-- The error class in STATUS.ERR (R210); its value 7 is never produced (I18). -/
inductive ErrClass where
  | ok
  | encodingError
  | frameError
  | communicationError
  | protocolNack
  | illegalCommand
  | argumentError
deriving DecidableEq, Repr

/-- The detail code in ERR_INFO.DETAIL (R211); its value 15 is never produced (I18). -/
inductive Detail where
  | none
  | len
  | sync
  | chk
  | timeout
  | link
  | nack
  | paylen
  | badOp
  | badSub
  | rsvdBits
  | badFlag
  | zeroStep
  | range
  | badField
deriving DecidableEq, Repr

/-- The FSM state `st` (R58). -/
inductive Fsm where
  | idle
  | tx
  | rx
  | settle
deriving DecidableEq, Repr

/-- The stored fields of STATUS (R27). BUSY and FSM are functions of `st` (R52, R58). -/
structure StatusBits where
  /-- DONE (R53) -/
  done : Bool
  /-- FV (R54) -/
  fv : Bool
  /-- ERR (R210) -/
  err : ErrClass
  /-- BUSY_WR (R55) -/
  busyWr : Bool
  /-- STRAY (R56) -/
  stray : Bool
deriving DecidableEq, Repr

/-- The operand registers that only the host writes (R28 to R37, R243). -/
structure HostRegs where
  /-- CFG.CHK_EN (R28) -/
  chkEn : Bool
  /-- CFG.IRQ_EN (R28) -/
  irqEn : Bool
  /-- DEV_ADDR (R29) -/
  devAddr : Byte
  /-- ARG (R30) -/
  arg : Word
  /-- RX_TIMEOUT (R33) -/
  rxTimeout : Word
  /-- RAMP_FROM (R34) -/
  rampFrom : Word
  /-- RAMP_TO (R34) -/
  rampTo : Word
  /-- RAMP_STEP (R35) -/
  rampStep : Word
  /-- RAMP_OFFSET, read as two's complement (R36) -/
  rampOffset : Word
  /-- SETTLE (R37) -/
  settle : Word
deriving DecidableEq, Repr

/-- ERR_INFO (R40). -/
structure ErrInfo where
  /-- DETAIL, bits 3:0 -/
  detail : Detail
  /-- ERR_SUB, bits 15:8 -/
  sub : Byte
  /-- ERR_OP, bits 19:16 -/
  op : BitVec 4
deriving DecidableEq, Repr

/-- What a good decode writes (R131): DEC_HDR (R42), ACK_OK and OUT_ON of DEC_FLAGS (R43), the field registers (R44 to R48). -/
structure Decoded where
  /-- DEC_HDR.RX_DEV -/
  rxDev : Byte
  /-- DEC_HDR.RX_SUB -/
  rxSub : Byte
  /-- DEC_HDR.ACK -/
  ack : Byte
  /-- DEC_HDR.STATE -/
  state : Byte
  /-- DEC_FLAGS.ACK_OK -/
  ackOk : Bool
  /-- DEC_FLAGS.OUT_ON -/
  outOn : Bool
  /-- CUR_MEAS -/
  curMeas : BitVec 16
  /-- VOLT_MEAS -/
  voltMeas : Word
  /-- IMAX -/
  imax : BitVec 16
  /-- VMAX -/
  vmax : Word
  /-- VSET -/
  vset : Word
deriving DecidableEq, Repr

/-- The checksum verdict in DEC_FLAGS (R43). -/
structure CheckFlags where
  /-- CHK_CALC -/
  sum : Byte
  /-- CHK_RCV -/
  rcv : Byte
  /-- CHK_OK -/
  ok : Bool
deriving DecidableEq, Repr

/-- The hidden registers of a running ramp (R59, R170, R171). -/
structure RampRegs where
  /-- R_T -/
  target : Word
  /-- R_S -/
  step : Word
  /-- R_O, read as two's complement -/
  offset : Word
  /-- R_D -/
  delay : Word
  /-- R_UP -/
  up : Bool
  /-- R_V -/
  pos : Word
  /-- R_C -/
  cand : Word
  /-- R_FINAL -/
  final : Bool
deriving DecidableEq, Repr

/-- The frame space (R60): the bytes of TXBUF, RXBUF and PAYBUF at their byte addresses in the register map, in one canonical
form: addresses strictly rising, no byte equal to 0, which is what an unlisted address reads as (R240: all bytes 0). -/
abbrev Memory := List Host.Cell

/-- The whole state of the block at a clock edge. -/
structure State where
  /-- CMD (R26) -/
  cmd : Word
  /-- STATUS (R27) -/
  status : StatusBits
  /-- the registers only the host writes (R28 to R37) -/
  regs : HostRegs
  /-- PAYLEN (R31) -/
  paylen : BitVec 5
  /-- RXLEN (R32) -/
  rxlen : BitVec 5
  /-- RAMP_POS (R38) -/
  rampPos : Word
  /-- RAMP_CNT (R39) -/
  rampCnt : Word
  /-- ERR_INFO (R40) -/
  errInfo : ErrInfo
  /-- RESULT (R41) -/
  result : Word
  /-- the registers of a good decode (R42 to R48) -/
  dec : Decoded
  /-- CHK_CALC, CHK_RCV, CHK_OK (R43) -/
  chk : CheckFlags
  /-- TXBUF, RXBUF, PAYBUF (R49 to R51) -/
  mem : Memory
  /-- st (R58) -/
  st : Fsm
  /-- OPR (R59) -/
  opr : BitVec 4
  /-- TXIDX (R59) -/
  txIdx : BitVec 5
  /-- RXW (R59, R153) -/
  rxw : Bool
  /-- TMR (R59, R155) -/
  tmr : Word
  /-- SCNT (R59, R174) -/
  scnt : Word
  /-- the R_* registers (R59, R170) -/
  ramp : RampRegs
  /-- the model's own (log 1): the inputs of the coming cycles that are already fixed, the next cycle's first -/
  script : List Pins
  /-- the model's own (log 1): the index of the coming cycle in the free input `Config.portsAt` -/
  cycle : Nat
deriving DecidableEq, Repr

/-- The state after reset (R240): RAMP_STEP = 500 and 0 for every other register, field and buffer byte. No input is fixed
(log 1). -/
def State.reset : State where
  cmd := 0
  status := { done := false, fv := false, err := .ok, busyWr := false, stray := false }
  regs :=
    { chkEn := false, irqEn := false, devAddr := 0, arg := 0, rxTimeout := 0, rampFrom := 0, rampTo := 0,
      rampStep := Config.defaultRampStep, rampOffset := 0, settle := 0 }
  paylen := 0
  rxlen := 0
  rampPos := 0
  rampCnt := 0
  errInfo := { detail := .none, sub := 0, op := 0 }
  result := 0
  dec :=
    { rxDev := 0, rxSub := 0, ack := 0, state := 0, ackOk := false, outOn := false, curMeas := 0, voltMeas := 0,
      imax := 0, vmax := 0, vset := 0 }
  chk := { sum := 0, rcv := 0, ok := false }
  mem := []
  st := .idle
  opr := 0
  txIdx := 0
  rxw := false
  tmr := 0
  scnt := 0
  ramp := { target := 0, step := 0, offset := 0, delay := 0, up := false, pos := 0, cand := 0, final := false }
  script := []
  cycle := 0

end Sys2Proof.Machine
end

