-- ==== Sys2Proof/Machine/Ops.lean ====
section
/-! DEFINITION. The named operations over memory and registers: the byte store (R60, R63), the three buffers (R49 to R51), the
input ports of the cycle (R22), a command's acceptance (R85) and its two completions (R212): completing without error, and
taking an error, the block's "trap" (R216). -/

namespace Sys2Proof.Machine

/-- The byte addresses that exist in the frame space (R49 to R51, R63). -/
def isBufferByte (a : Nat) : Bool :=
  (decide (Config.txBase ≤ a) && decide (a < Config.txBase + Config.frameLen)) ||
  (decide (Config.rxBase ≤ a) && decide (a < Config.rxBase + Config.frameLen)) ||
  (decide (Config.payBase ≤ a) && decide (a < Config.payBase + Config.payloadMax))

/-- What an address that the list does not hold reads as: 0, the reset contents of every buffer byte (R240). -/
def unlistedByte : Byte := 0

/-- The listed byte at an address. -/
def Memory.lookup : Memory → Nat → Byte
  | [], _ => unlistedByte
  | (b, v) :: m, a => if a = b then v else Memory.lookup m a

/-- Insertion at the first place that keeps rising addresses rising. -/
def Memory.insert : Memory → Nat → Byte → Memory
  | [], a, v => [(a, v)]
  | (b, w) :: m, a, v => if a < b then (a, v) :: (b, w) :: m else (b, w) :: Memory.insert m a v

/-- The list without an address. -/
def Memory.erase (m : Memory) (a : Nat) : Memory := m.filter (fun c => c.1 != a)

/-- Reading one byte; an address that does not exist reads 0 (R61, R63). -/
def Memory.read (m : Memory) (a : Nat) : Byte := if isBufferByte a then m.lookup a else 0

/-- Writing one byte; an address that does not exist ignores the write (R61, R63). The entry is removed when the byte is what
an unlisted address reads as, so that equal contents are equal lists. -/
def Memory.write (m : Memory) (a : Nat) (v : Byte) : Memory :=
  if isBufferByte a then
    if v = unlistedByte then m.erase a else (m.erase a).insert a v
  else m

/-- Writing bytes at rising addresses. -/
def Memory.writeBytes : Memory → Nat → List Byte → Memory
  | m, _, [] => m
  | m, a, v :: vs => Memory.writeBytes (m.write a v) (a + 1) vs

/-- Reading `n` bytes at rising addresses. -/
def Memory.readBytes (m : Memory) : Nat → Nat → List Byte
  | _, 0 => []
  | a, n + 1 => m.read a :: Memory.readBytes m (a + 1) n

/-- The canonical form: addresses strictly rising, each one existing, no byte equal to what an unlisted address reads as. -/
def Memory.wf (m : Memory) : Bool :=
  decide (m.Pairwise (fun c d => c.1 < d.1)) && m.all (fun c => isBufferByte c.1 && c.2 != unlistedByte)

/-- TXBUF[i] (R49). -/
def State.txByte (s : State) (i : Nat) : Byte := s.mem.read (Config.txBase + i)

/-- RXBUF[i] (R50). -/
def State.rxByte (s : State) (i : Nat) : Byte := s.mem.read (Config.rxBase + i)

/-- PAYBUF[i] (R51). -/
def State.payByte (s : State) (i : Nat) : Byte := s.mem.read (Config.payBase + i)

/-- TXBUF[0..25]. -/
def State.txFrame (s : State) : List Byte := s.mem.readBytes Config.txBase Config.frameLen

/-- RXBUF[0..25]. -/
def State.rxFrame (s : State) : List Byte := s.mem.readBytes Config.rxBase Config.frameLen

/-- PAYBUF[0..n-1]. -/
def State.payBytes (s : State) (n : Nat) : List Byte := s.mem.readBytes Config.payBase n

/-- The input ports in the coming cycle (log 1): the script's head, or the free input of that cycle. -/
def State.pins (s : State) : Pins :=
  match s.script with
  | [] => Config.portsAt s.cycle
  | p :: _ => p

/-- The cycle is over: the next one has the next inputs. -/
def State.tick (s : State) : State := { s with script := s.script.tail, cycle := s.cycle + 1 }

/-- BUSY, which equals `st != IDLE` (R52). -/
def State.busy (s : State) : Bool := decide (s.st ≠ .idle)

/-- R85's acceptance of an operation: OPR takes it; DONE, ERR and ERR_INFO are cleared (R53, R40). -/
def beginCommand (op : BitVec 4) (s : State) : State :=
  { s with
    opr := op
    status := { s.status with done := false, err := .ok }
    errInfo := { detail := .none, sub := 0, op := 0 } }

/-- `complete_ok()` (R212). -/
def completeOk (s : State) : State :=
  { s with status := { s.status with done := true }, st := .idle, rxw := false, scnt := 0 }

/-- `raise C(d)` with the command's context sub-address (R212): the error record of R216. Nothing is rolled back (R217). -/
def raiseError (c : ErrClass) (d : Detail) (sub : Byte) (s : State) : State :=
  { s with
    status := { s.status with done := true, err := c }
    errInfo := { detail := d, sub := sub, op := s.opr }
    st := .idle
    rxw := false
    scnt := 0 }

/-- The host's W1C write of STATUS (R67): DONE, BUSY_WR and STRAY are cleared where the written bit is 1. The block's acknowledge
(R219): there is no return instruction. -/
def clearStatus (w : Word) (s : State) : State :=
  { s with
    status :=
      { s.status with
        done := s.status.done && !w.getLsbD 1
        busyWr := s.status.busyWr && !w.getLsbD 16
        stray := s.status.stray && !w.getLsbD 17 } }

/-- The edge that starts an exchange (R158): RXBUF and RXLEN are cleared, the receive window opens, transmission begins. -/
def startExchange (s : State) : State :=
  { s with
    mem := s.mem.writeBytes Config.rxBase (List.replicate Config.frameLen 0)
    rxlen := 0
    rxw := true
    txIdx := 0
    tmr := 0
    st := .tx }

/-- A received byte (R153, R154): stored while the window is open and RXBUF is not full, else discarded as a stray (R56). -/
def receive (s : State) : State :=
  if s.pins.rxValid then
    if s.rxw = true ∧ s.rxlen.toNat < Config.frameLen then
      { s with mem := s.mem.write (Config.rxBase + s.rxlen.toNat) s.pins.rxData, rxlen := s.rxlen + 1 }
    else { s with status := { s.status with stray := true } }
  else s

end Sys2Proof.Machine
end

