-- ==== Sys2Proof/Machine/Operands.lean ====
section
/-! DEFINITION. The operand forms: the buffer a command selects (R84), little-endian fields (R130) and the payload packer
(R111), the flag argument (R191), the payload of a frame (R81), and a ramp's next position and commanded value (R171). -/

namespace Sys2Proof.Machine

/-- The first byte address of the buffer a BUF bit selects (R84). -/
def bufBase : BufSel → Nat
  | .rx => Config.rxBase
  | .tx => Config.txBase

/-- The bytes B[off .. off+w-1] of the selected buffer. -/
def State.field (s : State) (b : BufSel) (off w : Nat) : List Byte := s.mem.readBytes (bufBase b + off) w

/-- The little-endian number of bytes, the first least significant (R68, R130). -/
def leNat : List Byte → Nat
  | [] => 0
  | b :: bs => b.toNat + 256 * leNat bs

/-- `le_value(B, off, w)` zero-extended to 32 bits (R130). -/
def leValue (s : State) (b : BufSel) (off w : Nat) : Word := BitVec.ofNat 32 (leNat (s.field b off w))

/-- `nbytes(v)` (R111). -/
def nbytes (v : Word) : Nat :=
  if v.toNat < 2 ^ 8 then 1 else if v.toNat < 2 ^ 16 then 2 else if v.toNat < 2 ^ 24 then 3 else 4

/-- `le_bytes(v, n)` (R111), least significant byte first. -/
def leBytes (v : Word) : Nat → List Byte
  | 0 => []
  | n + 1 => v.extractLsb' 0 8 :: leBytes (v >>> 8) n

/-- The numeric payload of a value (R81, R111). -/
def numericPayload (v : Word) : List Byte := leBytes v (nbytes v)

/-- The flag payload of ARG (R81, R191); none when ARG is neither 0 nor 1. -/
def flagPayload (arg : Word) : Option (List Byte) :=
  if arg = 0 ∨ arg = 1 then some [arg.extractLsb' 0 8] else none

/-- The payload written to PAYBUF (the rest zero) and its length to PAYLEN (R114, R191, R195). -/
def setPayload (pay : List Byte) (s : State) : State :=
  { s with
    mem := s.mem.writeBytes Config.payBase (pay ++ List.replicate (Config.payloadMax - pay.length) 0)
    paylen := BitVec.ofNat 5 pay.length }

/-- UNPACK's operand check (R134): a width of 1 to 4 bytes that ends inside the 26 bytes. -/
def fieldInside (off wid : Nat) : Bool := decide (1 ≤ wid) && decide (wid ≤ 4) && decide (off + wid ≤ Config.frameLen)

/-- A ramp's next position and whether it is the final one (R171 part 1): sums and differences are of integers. -/
def nextPosition (r : RampRegs) : Word × Bool :=
  if r.up then
    if r.target.toNat ≤ r.pos.toNat + r.step.toNat then (r.target, true) else (r.pos + r.step, false)
  else if r.pos.toNat < r.step.toNat ∨ r.pos.toNat - r.step.toNat ≤ r.target.toNat then (r.target, true)
  else (r.pos - r.step, false)

/-- The commanded value c + signed(R_O), an exact integer (R171 part 2). -/
def commandedValue (c offset : Word) : Int := (c.toNat : Int) + offset.toInt

/-- Whether a commanded value lies in 0 to 2^32 - 1 (R171 part 2). -/
def inRange (w : Int) : Bool := decide (0 ≤ w) && decide (w < 2 ^ 32)

end Sys2Proof.Machine
end

