-- ==== Sys2Proof/Machine/Flags.lean ====
section
/-! DEFINITION. Every flag computation: the checksum and its verdict (R110, R116), the acknowledgement and output-on verdicts
(R136, R133), the error codes (R210, R211), and the words STATUS, ERR_INFO, DEC_HDR and DEC_FLAGS that the host reads. -/

namespace Sys2Proof.Machine

/-- The additive checksum (R110): 8-bit additions that discard their carry. -/
def checksum : List Byte → Byte
  | [] => 0
  | b :: bs => b + checksum bs

/-- The checksum verdict of a buffer (R116): bytes 0 to 24 against byte 25. -/
def checkVerdict (s : State) (b : BufSel) : CheckFlags :=
  let c := checksum (s.field b 0 Config.checksumAt)
  let r := s.mem.read (bufBase b + Config.checksumAt)
  { sum := c, rcv := r, ok := c == r }

/-- ACK_OK (R136). -/
def ackVerdict (ack : Byte) : Bool := ack == Config.ackSuccess

/-- OUT_ON (R133): 0 and 128 mean OFF, every other value ON. -/
def outputOn (state : Byte) : Bool := !(Config.stateOff.contains state)

/-- The code of an error class (R210). -/
def ErrClass.code : ErrClass → BitVec 3
  | .ok => 0
  | .encodingError => 1
  | .frameError => 2
  | .communicationError => 3
  | .protocolNack => 4
  | .illegalCommand => 5
  | .argumentError => 6

/-- The code of a detail (R211). -/
def Detail.code : Detail → BitVec 4
  | .none => 0
  | .len => 1
  | .sync => 2
  | .chk => 3
  | .timeout => 4
  | .link => 5
  | .nack => 6
  | .paylen => 7
  | .badOp => 8
  | .badSub => 9
  | .rsvdBits => 10
  | .badFlag => 11
  | .zeroStep => 12
  | .range => 13
  | .badField => 14

/-- The code of `st` in STATUS.FSM (R58). -/
def Fsm.code : Fsm → BitVec 3
  | .idle => 0
  | .tx => 1
  | .rx => 2
  | .settle => 3

/-- STATUS as the host reads it (R27). -/
def State.statusWord (s : State) : Word :=
  0#14 ++ BitVec.ofBool s.status.stray ++ BitVec.ofBool s.status.busyWr ++ 0#5 ++ s.st.code ++ 0#1 ++ s.status.err.code
    ++ 0#1 ++ BitVec.ofBool s.status.fv ++ BitVec.ofBool s.status.done ++ BitVec.ofBool s.busy

/-- CFG as the host reads it (R28). -/
def State.cfgWord (s : State) : Word :=
  0#30 ++ BitVec.ofBool s.regs.irqEn ++ BitVec.ofBool s.regs.chkEn

/-- ERR_INFO as the host reads it (R40). -/
def State.errInfoWord (s : State) : Word :=
  0#12 ++ s.errInfo.op ++ s.errInfo.sub ++ 0#4 ++ s.errInfo.detail.code

/-- DEC_HDR as the host reads it (R42). -/
def State.decHdrWord (s : State) : Word :=
  s.dec.state ++ s.dec.ack ++ s.dec.rxSub ++ s.dec.rxDev

/-- DEC_FLAGS as the host reads it (R43). -/
def State.decFlagsWord (s : State) : Word :=
  0#13 ++ BitVec.ofBool s.dec.outOn ++ BitVec.ofBool s.dec.ackOk ++ BitVec.ofBool s.chk.ok ++ s.chk.rcv ++ s.chk.sum

/-- The interrupt output (R218, R22): a level, DONE and IRQ_EN, from the two registers alone, so it changes only at clock edges; a
reset edge makes it 0 through IRQ_EN (R240). DEDUCED (log 14), unsafe: so also in the first cycle of a reset. -/
def State.irq (s : State) : Bool := s.status.done && s.regs.irqEn

end Sys2Proof.Machine
end

