-- ==== Sys2Proof/Machine/Bus.lean ====
section
/-! DEFINITION. The host bus: the register map (R23), reads (R62), writes of an idle block (R65), the busy rule (R66), and the
output ports (R22). -/

namespace Sys2Proof.Machine

/-- The registers of the map (R23). -/
inductive Reg where
  | id
  | cmd
  | status
  | cfg
  | devAddr
  | arg
  | paylen
  | rxlen
  | rxTimeout
  | rampFrom
  | rampTo
  | rampStep
  | rampOffset
  | settle
  | rampPos
  | rampCnt
  | errInfo
  | result
  | decHdr
  | decFlags
  | curMeas
  | voltMeas
  | imax
  | vmax
  | vset
  /-- word k of TXBUF, k = 0 to 6 -/
  | txbuf (k : Nat)
  /-- word k of RXBUF, k = 0 to 6 -/
  | rxbuf (k : Nat)
  /-- word k of PAYBUF, k = 0 to 5 -/
  | paybuf (k : Nat)
deriving DecidableEq, Repr

/-- The registers at word indices 0 to 24, in the map's order (R23). -/
def plainRegs : List Reg :=
  [.id, .cmd, .status, .cfg, .devAddr, .arg, .paylen, .rxlen, .rxTimeout, .rampFrom, .rampTo, .rampStep, .rampOffset,
   .settle, .rampPos, .rampCnt, .errInfo, .result, .decHdr, .decFlags, .curMeas, .voltMeas, .imax, .vmax, .vset]

/-- The register of a bus address, none where the address is reserved (R23). Bits 1:0 are ignored (R64). -/
def regAt (addr : BitVec 8) : Option Reg :=
  let w := addr.toNat / 4
  if w < 25 then plainRegs[w]?
  else if 32 ≤ w ∧ w ≤ 38 then some (.txbuf (w - 32))
  else if 40 ≤ w ∧ w ≤ 46 then some (.rxbuf (w - 40))
  else if 48 ≤ w ∧ w ≤ 53 then some (.paybuf (w - 48))
  else none

/-- The bus address of a register (R23, R91's addr). -/
def Reg.addr : Reg → BitVec 8
  | .txbuf k => BitVec.ofNat 8 (Config.txBase + 4 * k)
  | .rxbuf k => BitVec.ofNat 8 (Config.rxBase + 4 * k)
  | .paybuf k => BitVec.ofNat 8 (Config.payBase + 4 * k)
  | r => BitVec.ofNat 8 (4 * plainRegs.idxOf r)

/-- Word k of the buffer at a base address (R63); bytes that do not exist read 0. -/
def bufWord (s : State) (base k : Nat) : Word :=
  wordOfBytes (s.mem.read (base + 4 * k)) (s.mem.read (base + 4 * k + 1)) (s.mem.read (base + 4 * k + 2))
    (s.mem.read (base + 4 * k + 3))

/-- A buffer word written, all four byte lanes (R63, R64); bytes that do not exist ignore the write. -/
def writeBufWord (base k : Nat) (v : Word) (s : State) : State :=
  { s with mem := s.mem.writeBytes (base + 4 * k) (bytesOfWord v) }

/-- The word a register reads as (R23, R24). -/
def readReg (s : State) : Reg → Word
  | .id => Config.idWord
  | .cmd => s.cmd
  | .status => s.statusWord
  | .cfg => s.cfgWord
  | .devAddr => s.regs.devAddr.setWidth 32
  | .arg => s.regs.arg
  | .paylen => s.paylen.setWidth 32
  | .rxlen => s.rxlen.setWidth 32
  | .rxTimeout => s.regs.rxTimeout
  | .rampFrom => s.regs.rampFrom
  | .rampTo => s.regs.rampTo
  | .rampStep => s.regs.rampStep
  | .rampOffset => s.regs.rampOffset
  | .settle => s.regs.settle
  | .rampPos => s.rampPos
  | .rampCnt => s.rampCnt
  | .errInfo => s.errInfoWord
  | .result => s.result
  | .decHdr => s.decHdrWord
  | .decFlags => s.decFlagsWord
  | .curMeas => s.dec.curMeas.setWidth 32
  | .voltMeas => s.dec.voltMeas
  | .imax => s.dec.imax.setWidth 32
  | .vmax => s.dec.vmax
  | .vset => s.dec.vset
  | .txbuf k => bufWord s Config.txBase k
  | .rxbuf k => bufWord s Config.rxBase k
  | .paybuf k => bufWord s Config.payBase k

/-- `MemRead(addr, 4)` (R13, R62): no side effect; a reserved address reads 0 (R61). -/
def busRead (s : State) (addr : BitVec 8) : Word :=
  match regAt addr with
  | some r => readReg s r
  | none => 0

/-- A write of a register other than CMD and STATUS while the block is idle (R65): a RW register takes the value masked to its
width (R24), a read-only register ignores it. CMD is taken as a command and STATUS by R67, not here. -/
def writeReg (r : Reg) (v : Word) (s : State) : State :=
  match r with
  | .id => s
  | .cmd => s
  | .status => s
  | .cfg => { s with regs := { s.regs with chkEn := v.getLsbD 0, irqEn := v.getLsbD 1 } }
  | .devAddr => { s with regs := { s.regs with devAddr := v.setWidth 8 } }
  | .arg => { s with regs := { s.regs with arg := v } }
  | .paylen => { s with paylen := v.setWidth 5 }
  | .rxlen => { s with rxlen := v.setWidth 5 }
  | .rxTimeout => { s with regs := { s.regs with rxTimeout := v } }
  | .rampFrom => { s with regs := { s.regs with rampFrom := v } }
  | .rampTo => { s with regs := { s.regs with rampTo := v } }
  | .rampStep => { s with regs := { s.regs with rampStep := v } }
  | .rampOffset => { s with regs := { s.regs with rampOffset := v } }
  | .settle => { s with regs := { s.regs with settle := v } }
  | .rampPos => s
  | .rampCnt => s
  | .errInfo => s
  | .result => s
  | .decHdr => s
  | .decFlags => s
  | .curMeas => s
  | .voltMeas => s
  | .imax => s
  | .vmax => s
  | .vset => s
  | .txbuf k => writeBufWord Config.txBase k v s
  | .rxbuf k => writeBufWord Config.rxBase k v s
  | .paybuf k => writeBufWord Config.payBase k v s

/-- The register the host writes in this cycle, if it writes one. -/
def writtenReg (p : Pins) : Option Reg := if p.busWr then regAt p.busAddr else none

/-- This cycle's STATUS write, taken whether the block is busy or not (R67). -/
def statusWrite (p : Pins) (s : State) : State :=
  if writtenReg p = some .status then clearStatus p.busWdata s else s

/-- The busy rule (R55, R66): a write of any other register is ignored and marked; a reserved address marks nothing (R61, C10). -/
def busyWrite (p : Pins) (s : State) : State :=
  match writtenReg p with
  | none => s
  | some .status => s
  | some _ => { s with status := { s.status with busyWr := true } }

/-- A write of a register other than CMD while the block is idle (R65). -/
def idleWrite (p : Pins) (s : State) : State :=
  match writtenReg p with
  | none => s
  | some r => writeReg r p.busWdata s

/-- `tx_valid`: 1 in every cycle in TX (R151), 0 while `rst` is 1 (R240). DESIGN CHOICE (log 13), unsafe: in the first cycle of
a reset R240 is taken over R151. -/
def State.txValid (s : State) : Bool := decide (s.st = .tx) && !s.pins.rst

/-- `tx_data` (R151); none while `tx_valid` is 0, where the spec gives it no value (log 4). -/
def State.txData (s : State) : Option Byte := if s.txValid then some (s.txByte s.txIdx.toNat) else none

/-- `rx_ready` (R153): constantly 1. -/
def State.rxReady (_ : State) : Bool := true

/-- `bus_rdata` (R62); none in a cycle without a read, where the strobe does not qualify it (log 4). -/
def State.busRdata (s : State) : Option Word := if s.pins.busRd then some (busRead s s.pins.busAddr) else none

/-- The byte the link takes at this cycle's edge (R151); none when none is taken, and none at a reset edge (R240, log 13). -/
def State.sentByte (s : State) : Option Byte := if s.pins.txReady then s.txData else none

end Sys2Proof.Machine
end

