-- ==== Sys2Proof/Machine/FrameOps.lean ====
section
/-! DEFINITION. The two procedures over whole frames that the commands share: building a command frame (R112) and decoding a
response (R131). -/

namespace Sys2Proof.Machine

/-- The first 25 bytes of a command frame (R80): header, payload, zero padding. -/
def frameBody (dev sub : Byte) (pay : List Byte) : List Byte :=
  [Config.sync, dev, sub] ++ pay ++ List.replicate (Config.payloadMax - pay.length) 0

/-- The bytes of a command frame (R80), its checksum last. -/
def frameBytes (dev sub : Byte) (pay : List Byte) : List Byte :=
  frameBody dev sub pay ++ [checksum (frameBody dev sub pay)]

/-- `build_frame(dev, sub, pay)` (R112): every TXBUF byte is written. -/
def buildFrame (dev sub : Byte) (pay : List Byte) (s : State) : State :=
  { s with mem := s.mem.writeBytes Config.txBase (frameBytes dev sub pay) }

/-- The frame of a sub-address and the payload in PAYBUF[0 .. PAYLEN-1], for the device in DEV_ADDR (R113, R190). -/
def buildFromPayload (sub : Byte) (s : State) : State :=
  buildFrame s.regs.devAddr sub (s.payBytes s.paylen.toNat) s

/-- The numeric frame (R114, R171 part 3): the value packed into PAYBUF and PAYLEN, then the frame built. -/
def buildNumeric (sub : Byte) (v : Word) (s : State) : State :=
  buildFrame s.regs.devAddr sub (numericPayload v) (setPayload (numericPayload v) s)

/-- The fields of the response in RXBUF (R83, R131). -/
def decodedFields (s : State) : Decoded where
  rxDev := s.rxByte 1
  rxSub := s.rxByte 2
  ack := s.rxByte 3
  state := s.rxByte 9
  ackOk := ackVerdict (s.rxByte 3)
  outOn := outputOn (s.rxByte 9)
  curMeas := (leValue s .rx 3 2).setWidth 16
  voltMeas := leValue s .rx 5 4
  imax := (leValue s .rx 10 2).setWidth 16
  vmax := leValue s .rx 12 4
  vset := leValue s .rx 16 4

/-- `decode_frame()` (R131): the state it leaves, and the failing check (none when it returns OK). -/
def decodeFrame (s : State) : State × Option Detail :=
  let unread := { s with status := { s.status with fv := false } }
  if s.rxlen.toNat ≠ Config.frameLen then (unread, some .len)
  else
    let judged := { unread with chk := checkVerdict s .rx }
    if s.rxByte 0 ≠ Config.sync then (judged, some .sync)
    else if s.regs.chkEn = true ∧ judged.chk.ok = false then (judged, some .chk)
    else ({ judged with dec := decodedFields s, status := { s.status with fv := true } }, none)

end Sys2Proof.Machine
end

