-- ==== Sys2Proof/Machine/Codec.lean ====
section
/-! DEFINITION. The frame encoder and checksum validator: ENC_RAW (R113), ENC_NUM (R114), VALIDATE (R116). Each completes at
its acceptance edge (R71). -/

namespace Sys2Proof.Machine

/-- ENC_RAW (R113). -/
def execEncRaw (sub : Byte) (s : State) : Host.Outcome State Fault Refusal :=
  let s := beginCommand 1 s
  if SubAddr.ofByte sub = none then .next (raiseError .illegalCommand .badSub sub s)
  else if Config.payloadMax < s.paylen.toNat then .next (raiseError .encodingError .paylen sub s)
  else .next (completeOk (buildFromPayload sub s))

/-- ENC_NUM (R114). -/
def execEncNum (sub : Byte) (s : State) : Host.Outcome State Fault Refusal :=
  let s := beginCommand 2 s
  if SubAddr.ofByte sub = none then .next (raiseError .illegalCommand .badSub sub s)
  else .next (completeOk (buildNumeric sub s.regs.arg s))

/-- VALIDATE (R116): a mismatch is a verdict, not an error. -/
def execValidate (buf : BufSel) (s : State) : Host.Outcome State Fault Refusal :=
  let s := beginCommand 11 s
  .next (completeOk { s with chk := checkVerdict s buf })

end Sys2Proof.Machine
end

