-- ==== Sys2Proof/Machine/Exchange.lean ====
section
/-! DEFINITION. XFER (R159): one raw exchange of TXBUF as it stands. Acceptance starts the exchange (R158); the cycles of
Machine/Link.lean run it to its end. -/

namespace Sys2Proof.Machine

/-- XFER (R159). BUSY is set because `st` leaves IDLE (R52). -/
def execXfer (s : State) : Host.Outcome State Fault Refusal :=
  .next (startExchange (beginCommand 4 s))

end Sys2Proof.Machine
end

