-- ==== Sys2Proof/Machine/Ramp.lean ====
section
/-! DEFINITION. The ramp sequencer (R170 to R174): the RAMP command, one ramp step, what a response does to the ramp, and one
cycle of the settle wait. -/

namespace Sys2Proof.Machine

/-- `ramp_step()` up to its exchange (R171 parts 1 to 4). A value out of range ends the ramp before anything is built. -/
def rampStep (s : State) : State :=
  let c := nextPosition s.ramp
  let s := { s with ramp := { s.ramp with cand := c.1, final := c.2 } }
  let w := commandedValue c.1 s.ramp.offset
  if inRange w then startExchange (buildNumeric SubAddr.voltageSetpoint.code (BitVec.ofInt 32 w) s)
  else raiseError .argumentError .range SubAddr.voltageSetpoint.code s

/-- What follows a step's settle wait (R171 part 6): the next step, or the end. -/
def rampContinue (s : State) : State := if s.ramp.final then completeOk s else rampStep s

/-- The response to a ramp step (R171 parts 4 to 6, R173): a decode failure is a communication error (C4); an acknowledged step
is recorded, then settles. -/
def rampAnswered (s : State) : State :=
  match decodeFrame s with
  | (t, some d) => raiseError .communicationError d SubAddr.voltageSetpoint.code t
  | (t, none) =>
    if t.dec.ackOk = false then raiseError .protocolNack .nack SubAddr.voltageSetpoint.code t
    else
      let t := { t with rampCnt := t.rampCnt + 1, rampPos := t.ramp.cand, ramp := { t.ramp with pos := t.ramp.cand } }
      if t.ramp.delay = 0 then rampContinue t else { t with scnt := t.ramp.delay, st := .settle }

/-- One cycle in SETTLE (R174). -/
def settleCycle (s : State) : State :=
  if 1 < s.scnt.toNat then { s with scnt := s.scnt - 1 } else rampContinue { s with scnt := 0 }

/-- What a RAMP latches at acceptance (R170). -/
def rampLatch (s : State) : State :=
  { s with
    rampPos := s.regs.rampFrom
    rampCnt := 0
    ramp :=
      { s.ramp with
        target := s.regs.rampTo
        step := s.regs.rampStep
        offset := s.regs.rampOffset
        delay := s.regs.settle
        pos := s.regs.rampFrom } }

/-- RAMP (R170): equal positions complete at once, a zero step is refused, else the first step starts at this edge. -/
def execRamp (s : State) : Host.Outcome State Fault Refusal :=
  let s := rampLatch (beginCommand 10 s)
  if s.regs.rampFrom = s.regs.rampTo then .next (completeOk s)
  else if s.regs.rampStep = 0 then .next (raiseError .argumentError .zeroStep SubAddr.voltageSetpoint.code s)
  else .next (rampStep { s with ramp := { s.ramp with up := decide (s.regs.rampFrom.toNat < s.regs.rampTo.toNat) } })

end Sys2Proof.Machine
end

