-- ==== Sys2Proof/Machine/SingleShot.lean ====
section
/-! DEFINITION. The single-shot commands (R190 to R195): what each does at acceptance, and what it does with the response at the
edge its exchange ends. -/

namespace Sys2Proof.Machine

/-- The first half of `single_shot` (R190): the frame is built from PAYBUF[0 .. PAYLEN-1] and its exchange starts. -/
def singleShot (sub : SubAddr) (s : State) : State := startExchange (buildFromPayload sub.code s)

/-- The second half of `single_shot` (R190): the response is decoded and, for a write-type command, its acknowledgement
judged. -/
def singleShotAnswered (sub : SubAddr) (s : State) : State :=
  match decodeFrame s with
  | (t, some d) => raiseError .frameError d sub.code t
  | (t, none) =>
    if sub.isWrite = true ∧ t.dec.ackOk = false then raiseError .protocolNack .nack sub.code t else completeOk t

/-- REMOTE and OUTPUT at acceptance (R191, R192): the flag in ARG, refused before anything is written when it is not 0 or 1. -/
def flagCommand (sub : SubAddr) (s : State) : State :=
  match flagPayload s.regs.arg with
  | some pay => singleShot sub (setPayload pay s)
  | none => raiseError .argumentError .badFlag sub.code s

/-- SET_MAXV and SET_IMAX at acceptance (R193, R194): ARG as a number, no offset, no range check. -/
def numericCommand (sub : SubAddr) (s : State) : State :=
  singleShot sub (setPayload (numericPayload s.regs.arg) s)

/-- REMOTE (R191). -/
def execRemote (s : State) : Host.Outcome State Fault Refusal :=
  .next (flagCommand .remoteControl (beginCommand 5 s))

/-- OUTPUT (R192). -/
def execOutput (s : State) : Host.Outcome State Fault Refusal :=
  .next (flagCommand .outputEnable (beginCommand 6 s))

/-- SET_MAXV (R193). -/
def execSetMaxv (s : State) : Host.Outcome State Fault Refusal :=
  .next (numericCommand .maxVoltage (beginCommand 7 s))

/-- SET_IMAX (R194). -/
def execSetImax (s : State) : Host.Outcome State Fault Refusal :=
  .next (numericCommand .currentLimit (beginCommand 8 s))

/-- STATUS (R195): an empty payload. -/
def execStatus (s : State) : Host.Outcome State Fault Refusal :=
  .next (singleShot .statusQuery (setPayload [] (beginCommand 9 s)))

end Sys2Proof.Machine
end

