-- ==== Sys2Proof/Machine/Link.lean ====
section
/-! DEFINITION. The exchange's cycles (R151 to R158): how an exchange ends and what its command then does at the same edge, a
cycle of transmission, a cycle of waiting. A received byte of the cycle is stored before these run (R155). -/

namespace Sys2Proof.Machine

/-- The sub-address a single-shot command's frame carries, by OPR (R89, R191 to R195). -/
def singleShotSub (opr : BitVec 4) : Option SubAddr :=
  if opr = 5 then some .remoteControl
  else if opr = 6 then some .outputEnable
  else if opr = 7 then some .maxVoltage
  else if opr = 8 then some .currentLimit
  else if opr = 9 then some .statusQuery
  else none

/-- The sub-address of the frame a link command builds itself (R89); none for XFER, which sends TXBUF as it stands. -/
def frameSub (opr : BitVec 4) : Option SubAddr :=
  match singleShotSub opr with
  | some a => some a
  | none => if opr = 10 then some .voltageSetpoint else none

/-- The context sub-address of the running link command (R213): XFER's is the frame's byte 2. -/
def contextSub (s : State) : Byte :=
  if s.opr = 4 then s.txByte 2
  else
    match frameSub s.opr with
    | some a => a.code
    | none => 0

/-- The exchange ends OK (R158): the window closes and the running command goes on at the same edge. An OPR of no link command
is never running (log 6); it would end like XFER. -/
def exchangeOk (s : State) : State :=
  let s := { s with rxw := false }
  match singleShotSub s.opr with
  | some a => singleShotAnswered a s
  | none => if s.opr = 10 then rampAnswered s else completeOk s

/-- The exchange ends FAIL(d) (R158): every link command raises COMMUNICATION_ERROR (R159, R171, R190). -/
def exchangeFail (d : Detail) (s : State) : State := raiseError .communicationError d (contextSub s) s

/-- One cycle in TX (R151, R155): the offered byte is taken when the link is ready; a fault wins over every other event. -/
def txCycle (s : State) : State :=
  let t := if s.pins.txReady then { s with txIdx := s.txIdx + 1 } else s
  if s.pins.lnkErr then exchangeFail .link t
  else if s.pins.txReady = true ∧ t.txIdx.toNat = Config.frameLen then
    if t.rxlen.toNat = Config.frameLen then exchangeOk t else { t with st := .rx, tmr := 0 }
  else t

/-- One cycle in RX whose response is not complete and whose link is sound (R155, R157): the timeout, or the wait goes on. -/
def waitCycle (s : State) : State :=
  if s.regs.rxTimeout ≠ 0 ∧ s.regs.rxTimeout.toNat ≤ s.tmr.toNat + 1 then exchangeFail .timeout s
  else { s with tmr := s.tmr + 1 }

end Sys2Proof.Machine
end

