-- ==== Sys2Proof/Machine/Frames.lean ====
section
/-! DEFINITION. The frames as instructions of the wire protocol (R2, R80, R83; log 3). A command frame stands in TXBUF: running
it is one cycle of its transmission, repeated until its 26 bytes are taken (R151, R152). A response frame stands in RXBUF:
running it is the edge at which the exchange ends and the waiting command takes the response (R155, R158). -/

namespace Sys2Proof.Machine

/-- A header written into a buffer. A frame fetched from that buffer has this header already. -/
def putHeader (base : Nat) (b0 b1 b2 : Byte) (s : State) : State :=
  { s with mem := s.mem.writeBytes base [b0, b1, b2] }

/-- One cycle of a command frame's transmission. In every state but TX the block offers no byte (R151). -/
def transmitFrame (a : SubAddr) (dev : Byte) (s : State) : State :=
  if s.st = .tx then txCycle (putHeader Config.txBase Config.sync dev a.code s) else s

/-- The complete response is taken by the command that waits for it; no other state takes one (R153, R155). -/
def takeResponse (dev sub : Byte) (s : State) : State :=
  if s.st = .rx then exchangeOk (putHeader Config.rxBase Config.sync dev sub s) else s

/-- The REMOTE_CONTROL frame (R80, R89). -/
def execFrameRemoteControl (dev : Byte) (s : State) : Host.Outcome State Fault Refusal :=
  .next (transmitFrame .remoteControl dev s)

/-- The OUTPUT_ENABLE frame (R80, R89). -/
def execFrameOutputEnable (dev : Byte) (s : State) : Host.Outcome State Fault Refusal :=
  .next (transmitFrame .outputEnable dev s)

/-- The MAX_VOLTAGE frame (R80, R89). -/
def execFrameMaxVoltage (dev : Byte) (s : State) : Host.Outcome State Fault Refusal :=
  .next (transmitFrame .maxVoltage dev s)

/-- The VOLTAGE_SETPOINT frame (R80, R89). -/
def execFrameVoltageSetpoint (dev : Byte) (s : State) : Host.Outcome State Fault Refusal :=
  .next (transmitFrame .voltageSetpoint dev s)

/-- The CURRENT_LIMIT frame (R80, R89). -/
def execFrameCurrentLimit (dev : Byte) (s : State) : Host.Outcome State Fault Refusal :=
  .next (transmitFrame .currentLimit dev s)

/-- The STATUS_QUERY frame (R80, R89). -/
def execFrameStatusQuery (dev : Byte) (s : State) : Host.Outcome State Fault Refusal :=
  .next (transmitFrame .statusQuery dev s)

/-- The response frame (R82, R83). -/
def execFrameResponse (dev sub : Byte) (s : State) : Host.Outcome State Fault Refusal :=
  .next (takeResponse dev sub s)

end Sys2Proof.Machine
end

