-- ==== Sys2Proof/Machine/Unpacker.lean ====
section
/-! DEFINITION. The frame decoder and the field unpacker: DECODE (R132), UNPACK (R134). Each completes at its acceptance edge
(R71). -/

namespace Sys2Proof.Machine

/-- DECODE (R132): ERR_SUB is 0; the acknowledgement is reported, not judged. -/
def execDecode (s : State) : Host.Outcome State Fault Refusal :=
  match decodeFrame (beginCommand 3 s) with
  | (t, some d) => .next (raiseError .frameError d 0 t)
  | (t, none) => .next (completeOk t)

/-- UNPACK (R134). -/
def execUnpack (buf : BufSel) (off wid : Nat) (s : State) : Host.Outcome State Fault Refusal :=
  let s := beginCommand 12 s
  if fieldInside off wid then .next (completeOk { s with result := leValue s buf off wid })
  else .next (raiseError .argumentError .badField 0 s)

end Sys2Proof.Machine
end

