-- ==== Sys2Proof/Machine/Dispatch.lean ====
section
/-! DEFINITION. The meaning of every instruction: one arm per constructor, one meaning per arm. -/

namespace Sys2Proof.Machine

def exec (i : Instr) (s : State) : Host.Outcome State Fault Refusal :=
  match i with
  | .encRaw sub => Sys2Proof.Machine.execEncRaw sub s
  | .encNum sub => Sys2Proof.Machine.execEncNum sub s
  | .decode => Sys2Proof.Machine.execDecode s
  | .xfer => Sys2Proof.Machine.execXfer s
  | .remote => Sys2Proof.Machine.execRemote s
  | .output => Sys2Proof.Machine.execOutput s
  | .setMaxv => Sys2Proof.Machine.execSetMaxv s
  | .setImax => Sys2Proof.Machine.execSetImax s
  | .status => Sys2Proof.Machine.execStatus s
  | .ramp => Sys2Proof.Machine.execRamp s
  | .validate buf => Sys2Proof.Machine.execValidate buf s
  | .unpack buf off wid => Sys2Proof.Machine.execUnpack buf off wid s
  | .frameRemoteControl dev => Sys2Proof.Machine.execFrameRemoteControl dev s
  | .frameOutputEnable dev => Sys2Proof.Machine.execFrameOutputEnable dev s
  | .frameMaxVoltage dev => Sys2Proof.Machine.execFrameMaxVoltage dev s
  | .frameVoltageSetpoint dev => Sys2Proof.Machine.execFrameVoltageSetpoint dev s
  | .frameCurrentLimit dev => Sys2Proof.Machine.execFrameCurrentLimit dev s
  | .frameStatusQuery dev => Sys2Proof.Machine.execFrameStatusQuery dev s
  | .frameResponse dev sub => Sys2Proof.Machine.execFrameResponse dev sub s

end Sys2Proof.Machine
end

