-- ==== Sys2Proof/Machine/Cycle.lean ====
section
/-! DEFINITION. One clock cycle around the meanings: fetching (a command word from the bus, R26, R85; a command frame from TXBUF;
a response frame from RXBUF), the block's own cycle in TX, RX and SETTLE, and reset (R240). -/

namespace Sys2Proof.Machine

/-- The rest of a step is done with the state a meaning leaves. -/
def thenTick (o : Host.Outcome State Fault Refusal) : Host.Outcome State Fault Refusal :=
  match o with
  | .next s => .next s.tick
  | .fault r => .fault r
  | .refused r => .refused r

/-- The detail of an illegal command word (R85, R87). -/
def illegalDetail : DecodeError → Detail
  | .rsvdBits => .rsvdBits
  | .badOp => .badOp
  | .badLength => .badOp
  | .notSync => .badOp
  | .notInSubset => .badOp

/-- An illegal command word (R85, R87): accepted like any other, then ILLEGAL_COMMAND; ERR_SUB is 0 (R213). -/
def illegalCommand (w : Word) (e : DecodeError) (s : State) : State :=
  raiseError .illegalCommand (illegalDetail e) 0 (beginCommand (cmdOp w) s)

/-- The edge that accepts a command word (R26, R85): CMD keeps the word, and its operation is executed. -/
def acceptCommand (w : Word) (s : State) : Host.Outcome State Fault Refusal :=
  match decode .command (bytesOfWord w) with
  | .ok i => exec i { s with cmd := w }
  | .error e => .next (illegalCommand w e { s with cmd := w })

/-- The host's access in a cycle of an idle block (R65): a CMD write is a command, any other write a register write. -/
def idleCycle (p : Pins) (s : State) : Host.Outcome State Fault Refusal :=
  if writtenReg p = some .cmd then acceptCommand p.busWdata s else .next (idleWrite p s)

/-- A TX cycle: the frame in TXBUF is transmitted. TXBUF is sent even if it is not a valid frame (R159), in the same way. -/
def sendCycle (s : State) : Host.Outcome State Fault Refusal :=
  match decode .transmit s.txFrame with
  | .ok i => exec i s
  | .error _ => .next (txCycle s)

/-- The edge at which the response is complete (R155): the frame in RXBUF is taken. A buffer without the sync byte is no frame;
the waiting command judges it all the same (R131, R159). -/
def answerCycle (s : State) : Host.Outcome State Fault Refusal :=
  match decode .receive s.rxFrame with
  | .ok i => exec i s
  | .error _ => .next (exchangeOk s)

/-- An RX cycle, in R155's order: the link fault, the complete response, the timeout, the wait. -/
def receiveCycle (s : State) : Host.Outcome State Fault Refusal :=
  if s.pins.lnkErr then .next (exchangeFail .link s)
  else if s.rxlen.toNat = Config.frameLen then answerCycle s
  else .next (waitCycle s)

/-- The block's own cycle, by the state before the edge (R58, R155, R174); an idle block serves the host. -/
def blockCycle (p : Pins) (s : State) : Host.Outcome State Fault Refusal :=
  match s.st with
  | .idle => idleCycle p s
  | .tx => sendCycle (busyWrite p s)
  | .rx => receiveCycle (busyWrite p s)
  | .settle => .next (settleCycle (busyWrite p s))

/-- Reset at an edge (R240): every register takes its reset value and nothing else happens; the inputs are not the block's. -/
def resetEdge (s : State) : State := { State.reset with script := s.script, cycle := s.cycle }

/-- One clock cycle before the next inputs: reset, or this cycle's STATUS write, then its received byte (stored before the
exchange's conditions are read, R155; a set wins over a clear, R67), then the block's own cycle. -/
def cycleEdge (s : State) : Host.Outcome State Fault Refusal :=
  if s.pins.rst then .next (resetEdge s)
  else blockCycle s.pins (receive (statusWrite s.pins s))

/-- Input ports of a cycle in which the host writes a register and the link does nothing. -/
def hostWritePins (addr : BitVec 8) (v : Word) : Pins :=
  { rst := false, busAddr := addr, busWr := true, busRd := false, busWdata := v, txReady := false, rxData := 0,
    rxValid := false, lnkErr := false }

/-- Input ports of a cycle in which the host does nothing; the link is ready or not, and delivers a byte or none. -/
def linkPins (ready : Bool) (byte : Option Byte) : Pins :=
  { rst := false, busAddr := 0, busWr := false, busRd := false, busWdata := 0, txReady := ready,
    rxData := byte.getD 0, rxValid := byte.isSome, lnkErr := false }

/-- A command word standing where the next step fetches: the coming cycle's host write of CMD, to an idle block (R26). -/
def placeCommand (w : Word) (s : State) : State :=
  { s with st := .idle, script := hostWritePins 0x04 w :: s.script.tail }

/-- A command frame standing where the next step fetches: in TXBUF at the start of a raw exchange (R158, R159), the link ready. -/
def placeCommandFrame (frame : List Byte) (s : State) : State :=
  let t := startExchange { s with mem := s.mem.writeBytes Config.txBase frame, opr := 4 }
  { t with script := linkPins true none :: s.script.tail }

/-- A response frame standing where the next step fetches: complete in RXBUF while a STATUS command waits for it (R155, R195). -/
def placeResponse (frame : List Byte) (s : State) : State :=
  { s with
    mem := s.mem.writeBytes Config.rxBase frame
    rxlen := 26
    rxw := true
    st := .rx
    opr := 9
    script := linkPins false none :: s.script.tail }

/-- The instruction of a row of the opcode table, placed (log 3): a command word on the bus, a frame in its buffer. -/
def placeTableWord (nbits w : Nat) (s : State) : State :=
  if nbits ≤ 24 then
    match decode .transmit (frameOfHeader (w % 2 ^ nbits)) with
    | .ok _ => placeCommandFrame (frameOfHeader (w % 2 ^ nbits)) s
    | .error _ => placeResponse (frameOfHeader (w % 2 ^ nbits)) s
  else placeCommand (BitVec.ofNat 32 (w % 2 ^ nbits)) s

end Sys2Proof.Machine
end

