-- ==== Sys2Proof/Machine/Step.lean ====
section
/-! DEFINITION. The step: one clock cycle (R71), after which the next cycle's inputs stand at the ports. -/

namespace Sys2Proof.Machine

/-- One rising edge of `clk` (R71). -/
def step (s : State) : Host.Outcome State Fault Refusal := thenTick (cycleEdge s)

/-- The state with an instruction of the opcode table placed where the next step fetches it. -/
def State.withFetchWord (s : State) (nbits w : Nat) : State := placeTableWord nbits w s

end Sys2Proof.Machine
end

