-- ==== Sys2Proof/Machine/HostProgram.lean ====
section
/-! DEFINITION. The host-program statements of R91 and the pseudo-instructions of R92: their operand check, their expansion, the
bus accesses they stand for, and a host that issues one access a cycle. Host software: no part of the block or its step. -/

namespace Sys2Proof.Machine

/-- A statement whose operands are numbers as written (R91, R92). -/
inductive Stmt where
  | write (r : Reg) (v : Nat)
  | read (r : Reg)
  | encRaw (sub : Nat)
  | encNum (sub : Nat)
  | decode
  | xfer
  | remote
  | output
  | setmaxv
  | setimax
  | status
  | ramp
  | validate (buf : BufSel)
  | unpack (buf : BufSel) (off wid : Nat)
  | wait
  | clrdone
  | clrsticky
  | remoteOn
  | remoteOff
  | outputOn
  | outputOff
  | maxv (v : Nat)
  | imax (v : Nat)
  | query
  | rampto (start target : Nat)
deriving DecidableEq, Repr

/-- One host access, or the poll loop of `wait` (R92): reading STATUS until DONE is 1. -/
inductive BusOp where
  | write (addr : BitVec 8) (v : Word)
  | read (addr : BitVec 8)
  | pollDone
deriving DecidableEq, Repr

/-- A pseudo-instruction's expansion (R92); any other statement stands for itself. -/
def Stmt.expand : Stmt → List Stmt
  | .clrdone => [.write .status 0x00000002]
  | .clrsticky => [.write .status 0x00030000]
  | .remoteOn => [.write .arg 1, .remote, .wait]
  | .remoteOff => [.write .arg 0, .remote, .wait]
  | .outputOn => [.write .arg 1, .output, .wait]
  | .outputOff => [.write .arg 0, .output, .wait]
  | .maxv v => [.write .arg v, .setmaxv, .wait]
  | .imax v => [.write .arg v, .setimax, .wait]
  | .query => [.status, .wait]
  | .rampto f t => [.write .rampFrom f, .write .rampTo t, .ramp, .wait]
  | s => [s]

/-- The CMD write of an instruction: its encoded word (R91). -/
def commandWrite (i : Instr) : BusOp :=
  match encode i with
  | [b0, b1, b2, b3] => .write Reg.cmd.addr (wordOfBytes b0 b1 b2 b3)
  | _ => .write Reg.cmd.addr 0

/-- A statement that is no pseudo-instruction, assembled; none where an operand does not fit its field (R91: s > 0xFF, o > 31,
w > 7, a value over 32 bits) or the statement is a pseudo-instruction. -/
def Stmt.assemblePlain : Stmt → Option BusOp
  | .write r v => if v < 2 ^ 32 then some (.write r.addr (BitVec.ofNat 32 v)) else none
  | .read r => some (.read r.addr)
  | .encRaw sub => if sub ≤ 0xFF then some (commandWrite (.encRaw (BitVec.ofNat 8 sub))) else none
  | .encNum sub => if sub ≤ 0xFF then some (commandWrite (.encNum (BitVec.ofNat 8 sub))) else none
  | .decode => some (commandWrite .decode)
  | .xfer => some (commandWrite .xfer)
  | .remote => some (commandWrite .remote)
  | .output => some (commandWrite .output)
  | .setmaxv => some (commandWrite .setMaxv)
  | .setimax => some (commandWrite .setImax)
  | .status => some (commandWrite .status)
  | .ramp => some (commandWrite .ramp)
  | .validate buf => some (commandWrite (.validate buf))
  | .unpack buf off wid =>
    if (Instr.unpack buf off wid).wellFormed then some (commandWrite (.unpack buf off wid)) else none
  | .wait => some .pollDone
  | .clrdone => none
  | .clrsticky => none
  | .remoteOn => none
  | .remoteOff => none
  | .outputOn => none
  | .outputOff => none
  | .maxv _ => none
  | .imax _ => none
  | .query => none
  | .rampto _ _ => none

/-- The bus accesses of a statement (R91, R92); none where an operand does not fit. -/
def Stmt.assemble (s : Stmt) : Option (List BusOp) := s.expand.mapM Stmt.assemblePlain

/-- A program assembled statement by statement. -/
def assembleProgram (p : List Stmt) : Option (List BusOp) := (p.mapM Stmt.assemble).map List.flatten

/-- The host ports of a cycle in which the host issues an access; the link ports are the given ones. -/
def BusOp.pins (o : BusOp) (link : Pins) : Pins :=
  match o with
  | .write a v => { link with busAddr := a, busWr := true, busRd := false, busWdata := v }
  | .read a => { link with busAddr := a, busWr := false, busRd := true }
  | .pollDone => { link with busAddr := Reg.status.addr, busWr := false, busRd := true }

/-- The host's accesses after a cycle: a poll that read DONE = 0 is issued again (R92). -/
def hostRest (s : State) : List BusOp → List BusOp
  | [] => []
  | .pollDone :: rest => if (busRead s Reg.status.addr).getLsbD 1 then rest else .pollDone :: rest
  | _ :: rest => rest

end Sys2Proof.Machine
end

