-- ==== Sys2Proof/Safety.lean ====
section
/-! DEFINITION. What counts as a safe run, in the terms the statements use: the invariant of the block's state, runs of several
steps, the bytes a run sends, and cycles in which the host or the link stays quiet. -/

namespace Sys2Proof.Machine

/-- Whether an exchange is running (R153's window, R155's states). -/
def State.exchanging (s : State) : Prop := s.st = .tx ∨ s.st = .rx

/-- The exchange engine's counters stay in their bounds (R21, R153 to R158, R174). -/
structure State.EngineInv (s : State) : Prop where
  /-- the window is open exactly during an exchange (R153) -/
  window : s.rxw = true ↔ s.exchanging
  /-- while transmitting, a byte is left to send and RXBUF holds at most 26 (R151, R154) -/
  sending : s.st = .tx → s.txIdx.toNat < 26 ∧ s.rxlen.toNat ≤ 26
  /-- while waiting, the frame is sent and the response is not complete (R155) -/
  waiting : s.st = .rx → s.txIdx.toNat = 26 ∧ s.rxlen.toNat < 26
  /-- the timeout has not expired while the block still waits (R157) -/
  timer : s.st = .rx → s.regs.rxTimeout ≠ 0 → s.tmr.toNat < s.regs.rxTimeout.toNat
  /-- an exchange is run by a link command (R86) -/
  linkCommand : s.exchanging → 4 ≤ s.opr.toNat ∧ s.opr.toNat ≤ 10
  /-- only a ramp settles, and its count has not run out (R174) -/
  settling : s.st = .settle → s.opr = 10 ∧ s.scnt ≠ 0 ∧ s.scnt.toNat ≤ s.ramp.delay.toNat
  /-- no settle count outside SETTLE (R212) -/
  settleCount : s.st ≠ .settle → s.scnt = 0

/-- The classes a detail code belongs to (R211). -/
def Detail.belongsTo : Detail → ErrClass → Bool
  | .none, c => c == .ok
  | .len, c => c == .frameError
  | .sync, c => c == .frameError || c == .communicationError
  | .chk, c => c == .frameError || c == .communicationError
  | .timeout, c => c == .communicationError
  | .link, c => c == .communicationError
  | .nack, c => c == .protocolNack
  | .paylen, c => c == .encodingError
  | .badOp, c => c == .illegalCommand
  | .badSub, c => c == .illegalCommand
  | .rsvdBits, c => c == .illegalCommand
  | .badFlag, c => c == .argumentError
  | .zeroStep, c => c == .argumentError
  | .range, c => c == .argumentError
  | .badField, c => c == .argumentError

/-- The records of a completion and of a decode say what they are defined to say (R40, R43, R53, R211). -/
structure State.RecordInv (s : State) : Prop where
  /-- a running command has not completed and has no error record (R53, R85) -/
  running : s.st ≠ .idle → s.status.done = false ∧ s.status.err = .ok
  /-- the detail belongs to the class (R211) -/
  detail : s.errInfo.detail.belongsTo s.status.err = true
  /-- without an error the whole record is 0 (R40) -/
  noError : s.status.err = .ok → s.errInfo = { detail := .none, sub := 0, op := 0 }
  /-- ACK_OK is the verdict on ACK (R43, R136) -/
  ack : s.dec.ackOk = ackVerdict s.dec.ack
  /-- OUT_ON is the verdict on STATE (R43, R133) -/
  out : s.dec.outOn = outputOn s.dec.state
  /-- CHK_OK is set only for equal checksums (R43) -/
  check : s.chk.ok = true → s.chk.sum = s.chk.rcv

/-- While a command that builds its frame runs, TXBUF holds that frame (R80, R112, R190, R171). -/
def State.FrameInv (s : State) : Prop :=
  s.st ≠ .idle → ∀ a, frameSub s.opr = some a →
    s.paylen.toNat ≤ 4 ∧ s.txFrame = frameBytes s.regs.devAddr a.code (s.payBytes s.paylen.toNat)

/-- The distance of a ramp, |RAMP_TO - RAMP_FROM| (R172). -/
def rampDistance (r : HostRegs) : Nat := (r.rampTo.toNat - r.rampFrom.toNat) + (r.rampFrom.toNat - r.rampTo.toNat)

/-- The position a distance `t` away from RAMP_FROM in the direction of travel (R172). -/
def rampAt (r : HostRegs) (t : Nat) : Int :=
  if r.rampFrom.toNat < r.rampTo.toNat then (r.rampFrom.toNat : Int) + t else (r.rampFrom.toNat : Int) - t

/-- R172's N = ceil(|T - F| / S). -/
def rampCommands (r : HostRegs) : Nat := (rampDistance r + r.rampStep.toNat - 1) / r.rampStep.toNat

/-- Whether a RAMP is running. -/
def State.ramping (s : State) : Prop := s.st ≠ .idle ∧ s.opr = 10

/-- A running ramp stands where R172 puts it: after k acknowledged steps it is k·S from its start, and the step in flight goes to
the next multiple of S or, if that would reach or pass it, to the target. -/
structure State.RampInv (s : State) : Prop where
  /-- R170: the operands are latched and a ramp that runs has a distance and a step -/
  latched : s.ramping → s.ramp.target = s.regs.rampTo ∧ s.ramp.step = s.regs.rampStep ∧
    s.ramp.offset = s.regs.rampOffset ∧ s.ramp.delay = s.regs.settle ∧
    s.ramp.up = decide (s.regs.rampFrom.toNat < s.regs.rampTo.toNat) ∧
    s.regs.rampFrom ≠ s.regs.rampTo ∧ s.regs.rampStep ≠ 0
  /-- RAMP_POS is the last acknowledged position (R38) -/
  recorded : s.ramping → s.rampPos = s.ramp.pos
  /-- during a step's exchange -/
  inFlight : s.ramping → s.exchanging →
    s.rampCnt.toNat * s.regs.rampStep.toNat < rampDistance s.regs ∧
    (s.ramp.pos.toNat : Int) = rampAt s.regs (s.rampCnt.toNat * s.regs.rampStep.toNat) ∧
    (s.ramp.cand.toNat : Int) =
      rampAt s.regs (min ((s.rampCnt.toNat + 1) * s.regs.rampStep.toNat) (rampDistance s.regs)) ∧
    s.ramp.final = decide (rampDistance s.regs ≤ (s.rampCnt.toNat + 1) * s.regs.rampStep.toNat)
  /-- during the settle wait of an acknowledged step -/
  settled : s.ramping → s.st = .settle →
    1 ≤ s.rampCnt.toNat ∧ (s.rampCnt.toNat - 1) * s.regs.rampStep.toNat < rampDistance s.regs ∧
    s.ramp.cand = s.ramp.pos ∧
    (s.ramp.pos.toNat : Int) = rampAt s.regs (min (s.rampCnt.toNat * s.regs.rampStep.toNat) (rampDistance s.regs)) ∧
    s.ramp.final = decide (rampDistance s.regs ≤ s.rampCnt.toNat * s.regs.rampStep.toNat)

/-- The invariant of the block. -/
structure State.Inv (s : State) : Prop where
  /-- the memory is in its canonical form -/
  memory : s.mem.wf = true
  engine : s.EngineInv
  record : s.RecordInv
  frame : s.FrameInv
  ramp : s.RampInv

/-! ### What a result is, byte by byte, in the spec's own terms -/

/-- The first byte address of a buffer: RXBUF at 0xA0, TXBUF at 0x80 (R23). -/
def bufferAt : BufSel → Nat
  | .rx => 0xA0
  | .tx => 0x80

/-- The sum of bytes 0 to 24 of a buffer, modulo 256 (R110). -/
def sumOf (s : State) (base : Nat) : Nat := (∑ i ∈ Finset.range 25, (s.mem.read (base + i)).toNat) % 256

/-- TXBUF holds the command frame of a device, a sub-address and a payload (R80, R112). -/
def State.holdsFrame (t : State) (dev sub : Byte) (pay : List Byte) : Prop :=
  t.txByte 0 = 0xAA ∧ t.txByte 1 = dev ∧ t.txByte 2 = sub ∧
  (∀ i, i < pay.length → t.txByte (3 + i) = pay.getD i 0) ∧
  (∀ i, pay.length ≤ i → i < 22 → t.txByte (3 + i) = 0) ∧
  (t.txByte 25).toNat = sumOf t 0x80

/-- PAYBUF and PAYLEN hold a payload, the rest of PAYBUF zero (R114). -/
def State.holdsPayload (t : State) (pay : List Byte) : Prop :=
  t.paylen.toNat = pay.length ∧
  (∀ i, i < pay.length → t.payByte i = pay.getD i 0) ∧
  (∀ i, pay.length ≤ i → i < 22 → t.payByte i = 0)

/-- The bytes are a number's little-endian bytes, as few as hold it but at least one (R111). -/
def isNumberPayload (pay : List Byte) (v : Nat) : Prop :=
  1 ≤ pay.length ∧ v = ∑ i ∈ Finset.range pay.length, (pay.getD i 0).toNat * 256 ^ i ∧
  (pay.length = 1 ∨ 256 ^ (pay.length - 1) ≤ v)

/-- The verdict in DEC_FLAGS on the buffer at an address (R43, R116). -/
def isVerdict (c : CheckFlags) (s : State) (base : Nat) : Prop :=
  c.sum.toNat = sumOf s base ∧ c.rcv = s.mem.read (base + 25) ∧ c.ok = decide (c.sum = c.rcv)

/-- The checksum of RXBUF does not match its byte 25. -/
abbrev State.responseCorrupt (s : State) : Prop := (s.rxByte 25).toNat ≠ sumOf s 0xA0

/-- The decoded registers hold the fields of the response in RXBUF (R83, R131). -/
def isDecoded (d : Decoded) (s : State) : Prop :=
  d.rxDev = s.rxByte 1 ∧ d.rxSub = s.rxByte 2 ∧ d.ack = s.rxByte 3 ∧ d.state = s.rxByte 9 ∧
  d.ackOk = decide (s.rxByte 3 = 0x80) ∧ d.outOn = decide (¬(s.rxByte 9 = 0 ∨ s.rxByte 9 = 128)) ∧
  d.curMeas.toNat = (s.rxByte 3).toNat + (s.rxByte 4).toNat * 2 ^ 8 ∧
  d.voltMeas.toNat = (s.rxByte 5).toNat + (s.rxByte 6).toNat * 2 ^ 8 + (s.rxByte 7).toNat * 2 ^ 16
    + (s.rxByte 8).toNat * 2 ^ 24 ∧
  d.imax.toNat = (s.rxByte 10).toNat + (s.rxByte 11).toNat * 2 ^ 8 ∧
  d.vmax.toNat = (s.rxByte 12).toNat + (s.rxByte 13).toNat * 2 ^ 8 + (s.rxByte 14).toNat * 2 ^ 16
    + (s.rxByte 15).toNat * 2 ^ 24 ∧
  d.vset.toNat = (s.rxByte 16).toNat + (s.rxByte 17).toNat * 2 ^ 8 + (s.rxByte 18).toNat * 2 ^ 16
    + (s.rxByte 19).toNat * 2 ^ 24

/-- Every byte of memory reads the same. -/
def sameMemory (s t : State) : Prop := ∀ a, t.mem.read a = s.mem.read a

/-- Every byte of memory outside RXBUF reads the same. -/
def sameOutsideRx (s t : State) : Prop := ∀ a, a < 0xA0 ∨ 0xBA ≤ a → t.mem.read a = s.mem.read a

/-- RXBUF is all zero (R154). -/
def State.responseCleared (t : State) : Prop := ∀ i, i < 26 → t.rxByte i = 0

/-- A complete well-formed response stands in RXBUF while a command waits for it (R82, R155). -/
def State.responseReady (s : State) (dev sub : Byte) : Prop :=
  s.st = .rx ∧ s.rxlen = 26 ∧ s.rxByte 0 = 0xAA ∧ s.rxByte 1 = dev ∧ s.rxByte 2 = sub

/-- The next position of a ramp at `r` and whether it is the final one (R171 part 1). -/
def isNextPosition (r : RampRegs) (c : Word) (final : Bool) : Prop :=
  if r.up = true then
    if r.target.toNat ≤ r.pos.toNat + r.step.toNat then c = r.target ∧ final = true
    else c.toNat = r.pos.toNat + r.step.toNat ∧ final = false
  else if r.pos.toNat < r.step.toNat ∨ r.pos.toNat - r.step.toNat ≤ r.target.toNat then c = r.target ∧ final = true
  else c.toNat = r.pos.toNat - r.step.toNat ∧ final = false

/-- What `ramp_step()` does at an edge to the ramp in `s` (R171 parts 1 to 4): the setpoint frame of the next position plus the
offset is built and its exchange starts, or a sum outside 0 to 2^32 - 1 ends the ramp before anything is built. -/
def isRampStep (s t : State) : Prop :=
  ∃ (c : Word) (f : Bool), isNextPosition s.ramp c f ∧
    if 0 ≤ (c.toNat : Int) + s.ramp.offset.toInt ∧ (c.toNat : Int) + s.ramp.offset.toInt < 2 ^ 32 then
      (∃ pay, isNumberPayload pay ((c.toNat : Int) + s.ramp.offset.toInt).toNat ∧
        t.holdsPayload pay ∧ t.holdsFrame s.regs.devAddr 0x23 pay) ∧
      t.responseCleared ∧
      t = { s with
        mem := t.mem, paylen := t.paylen, ramp := { s.ramp with cand := c, final := f }
        rxlen := 0, rxw := true, txIdx := 0, tmr := 0, st := .tx }
    else
      t = { s with
        ramp := { s.ramp with cand := c, final := f }
        status := { s.status with done := true, err := .argumentError }
        errInfo := { detail := .range, sub := 0x23, op := s.opr }
        st := .idle, rxw := false, scnt := 0 }

/-! ### Runs -/

/-- `n` steps of the machine. -/
def runSteps (n : Nat) (s : State) : Host.Outcome State Fault Refusal := Sys2Proof.core.run n s

/-- The bytes the link takes in the next `n` cycles (R151), oldest first. -/
def sentBytes : Nat → State → List Byte
  | 0, _ => []
  | n + 1, s =>
    s.sentByte.toList ++
      match step s with
      | .next t => sentBytes n t
      | .fault _ => []
      | .refused _ => []

/-- A cycle in which neither reset nor a host write arrives. -/
def hostQuiet (p : Pins) : Bool := !p.rst && !p.busWr

/-- A cycle in which the link neither delivers a byte nor faults. -/
def linkSilent (p : Pins) : Bool := !p.rxValid && !p.lnkErr

end Sys2Proof.Machine
end

