-- ==== Sys2Proof/Certificates/Slice0/Obligations.lean ====
section
/-! DEFINITION. The statements for the provers, from the numbered rules of spec/. -/

open Sys2Proof Sys2Proof.Machine

/-! ### Encoding (30_encoding.md) -/

/-- Decoding the encoding of a well-formed instruction, at its place, gives the instruction (R84, R86, R88, R91). That the decoder is
told the place is the model's choice (log 2). -/
def Obligations.DecodeOfEncodeIsTheInstruction : Prop :=
  ∀ i : Instr, i.wellFormed = true → decode i.place (encode i) = .ok i

/-- R86, R87: a command word is the instruction of opcode m exactly when (w & 0xFF0000EF) == m, for m in 0x1 to 0xC; it is BAD_OP
exactly when OP is 0x0 or 0xD to 0xF, and RSVD_BITS exactly when OP is legal and a reserved bit is set. -/
def Obligations.CommandWordMatchesItsRow : Prop :=
  ∀ w : Word,
    (∀ m, 1 ≤ m → m ≤ 12 →
      ((∃ i, decodeCommand w = .ok i ∧ i.opcode = some m) ↔ (w &&& 0xFF0000EF#32).toNat = m)) ∧
    (decodeCommand w = .error .badOp ↔
      (w &&& 0xF#32).toNat = 0 ∨ (w &&& 0xF#32).toNat = 13 ∨ (w &&& 0xF#32).toNat = 14 ∨ (w &&& 0xF#32).toNat = 15) ∧
    (decodeCommand w = .error .rsvdBits ↔
      1 ≤ (w &&& 0xF#32).toNat ∧ (w &&& 0xF#32).toNat ≤ 12 ∧ w &&& 0xFF0000E0#32 ≠ 0#32)

/-- R84: of a word that decodes, encoding gives back the word with the fields its operation ignores set to 0: SUB is used by
ENC_RAW and ENC_NUM, BUF by VALIDATE and UNPACK, OFF and WID by UNPACK. -/
def Obligations.EncodeOfDecodeKeepsTheUsedFields : Prop :=
  ∀ (w : Word) (i : Instr), decodeCommand w = .ok i →
    ∃ m : Word, encode i = bytesOfWord (w &&& m) ∧
      (∀ sub, i = .encRaw sub ∨ i = .encNum sub → m = 0x0000FF0F#32) ∧
      (∀ b, i = .validate b → m = 0x0000001F#32) ∧
      (∀ b o wd, i = .unpack b o wd → m = 0x00FF001F#32) ∧
      ((∀ sub, i ≠ .encRaw sub ∧ i ≠ .encNum sub) → (∀ b, i ≠ .validate b) → (∀ b o wd, i ≠ .unpack b o wd) →
        m = 0x0000000F#32)

/-- R88: a frame in TXBUF is the command frame of sub-address a exactly when its header word matches (H & 0xFF00FF) == (a << 16) |
0xAA; a frame in RXBUF is a response exactly when (H & 0x0000FF) == 0xAA. -/
def Obligations.FrameHeaderMatchesItsRow : Prop :=
  ∀ (b0 b1 b2 : Byte) (rest : List Byte),
    (∀ a : SubAddr, decode .transmit (b0 :: b1 :: b2 :: rest) = .ok (Instr.ofFrame a b1) ↔
      (headerWord b0 b1 b2 &&& 0xFF00FF#24).toNat = a.code.toNat * 2 ^ 16 + 0xAA) ∧
    (decode .receive (b0 :: b1 :: b2 :: rest) = .ok (.frameResponse b1 b2) ↔
      (headerWord b0 b1 b2 &&& 0x0000FF#24).toNat = 0xAA)

/-- Words written out from the spec's encodings decode to their instructions (R84, R86, R88, R91); the place is the model's (log 2). -/
def Obligations.WrittenWordsDecode : Prop :=
  decode .command [0x01, 0x23, 0x00, 0x00] = .ok (.encRaw 0x23) ∧
  decode .command [0x0C, 0x00, 0x85, 0x00] = .ok (.unpack .rx 5 4) ∧
  decode .command [0x1B, 0x00, 0x00, 0x00] = .ok (.validate .tx) ∧
  decode .command [0x0A, 0x00, 0x00, 0x00] = .ok .ramp ∧
  decode .command [0x23, 0x00, 0x00, 0x00] = .error .rsvdBits ∧
  decode .transmit [0xAA, 0x05, 0x22] = .ok (.frameMaxVoltage 5) ∧
  decode .receive [0xAA, 0x00, 0x23] = .ok (.frameResponse 0 0x23)

/-! ### A step runs the decoded instruction -/

/-- R26, R85: in an idle block, without reset, a host write of CMD whose word decodes to i is run: the step is exec of i at the
state with this cycle's received byte handled and the word kept in CMD, and then the next cycle's inputs (log 1). -/
def Obligations.StepRunsTheCommandWord : Prop :=
  ∀ (s : State) (i : Instr), s.pins.rst = false → s.st = .idle → s.pins.busWr = true → s.pins.busAddr.toNat / 4 = 1 →
    decode .command (bytesOfWord s.pins.busWdata) = .ok i →
    step s = thenTick (exec i { receive s with cmd := s.pins.busWdata })

/-- R151, R155: while the block transmits, the command frame in TXBUF is run: the step is exec of it at the state with this
cycle's STATUS write, received byte and ignored host write handled. A TXBUF that is no command frame is transmitted by the same
cycle (R159). That a frame is an instruction run once a cycle is the model's choice (log 3). -/
def Obligations.StepRunsTheCommandFrame : Prop :=
  ∀ s : State, s.pins.rst = false → s.st = .tx →
    (∀ i, decode .transmit s.txFrame = .ok i →
      step s = thenTick (exec i (busyWrite s.pins (receive (statusWrite s.pins s))))) ∧
    (∀ e, decode .transmit s.txFrame = .error e →
      step s = .next (txCycle (busyWrite s.pins (receive (statusWrite s.pins s)))).tick)

/-- R155: at the edge at which the response is complete, the frame in RXBUF is run: the step is exec of it at the state with this
cycle's STATUS write, received byte and ignored host write handled. That a response is an instruction is the model's choice (log 3). -/
def Obligations.StepRunsTheResponse : Prop :=
  ∀ (s u : State) (i : Instr), s.pins.rst = false → s.st = .rx → s.pins.lnkErr = false →
    u = busyWrite s.pins (receive (statusWrite s.pins s)) → u.rxlen = 26 → decode .receive u.rxFrame = .ok i →
    step s = thenTick (exec i u)

/-- R85, R87: an illegal word is accepted and completes at once with ILLEGAL_COMMAND: the block changes nothing but CMD, OPR, DONE,
ERR and ERR_INFO (and STRAY for a byte received in that cycle, R56). -/
def Obligations.IllegalWordIsRefusedAtOnce : Prop :=
  ∀ s : State, s.Inv → s.pins.rst = false → s.st = .idle → s.pins.busWr = true → s.pins.busAddr.toNat / 4 = 1 →
    (∀ i, decode .command (bytesOfWord s.pins.busWdata) ≠ .ok i) →
    step s = .next (State.tick { s with
      cmd := s.pins.busWdata
      opr := s.pins.busWdata.extractLsb' 0 4
      status := { s.status with done := true, err := .illegalCommand, stray := s.status.stray || s.pins.rxValid }
      errInfo :=
        { detail :=
            if (s.pins.busWdata.extractLsb' 0 4).toNat = 0 ∨ 13 ≤ (s.pins.busWdata.extractLsb' 0 4).toNat then .badOp
            else .rsvdBits
          sub := 0
          op := s.pins.busWdata.extractLsb' 0 4 } })

/-! ### The frame encoder and the checksum validator (40_frame_codec.md) -/

/-- R110: the checksum is the sum of the bytes modulo 256, what successive 8-bit additions that discard their carry give; of 25
bytes the sum before reduction is at most 6375; the checksum of a buffer is that of its bytes 0 to 24, byte 25 not among them. -/
def Obligations.ChecksumIsTheSumModulo256 : Prop :=
  ∀ bs : List Byte,
    (checksum bs).toNat = (bs.map BitVec.toNat).sum % 256 ∧
    checksum bs = bs.foldl (fun acc b => acc + b) 0 ∧
    (bs.length = 25 → (bs.map BitVec.toNat).sum ≤ 6375) ∧
    (∀ (s : State) (b : BufSel), (checkVerdict s b).sum.toNat = sumOf s (bufferAt b))

/-- R111: nbytes is 1, 2, 3 or 4 by the value's size; le_bytes gives the value's bytes, least significant first; together they give
the value's bytes, no fewer would hold it. -/
def Obligations.PackerIsMinimalAndLittleEndian : Prop :=
  ∀ v : Word,
    nbytes v = (if v.toNat < 2 ^ 8 then 1 else if v.toNat < 2 ^ 16 then 2 else if v.toNat < 2 ^ 24 then 3 else 4) ∧
    (∀ n i, i < n → (leBytes v n).getD i 0 = v.extractLsb' (8 * i) 8) ∧
    (∀ n, (leBytes v n).length = n) ∧
    isNumberPayload (leBytes v (nbytes v)) v.toNat

/-- R112: building a frame writes every byte of TXBUF, for a payload of at most 22 bytes, and no other byte. -/
def Obligations.BuildFrameWritesEveryTxByte : Prop :=
  ∀ (dev sub : Byte) (pay : List Byte) (s : State), pay.length ≤ 22 →
    (buildFrame dev sub pay s).holdsFrame dev sub pay ∧
    (∀ a, a < 0x80 ∨ 0x9A ≤ a → (buildFrame dev sub pay s).mem.read a = s.mem.read a) ∧
    buildFrame dev sub pay s = { s with mem := (buildFrame dev sub pay s).mem }

/-- R113: ENC_RAW in every state: BAD_SUB is checked first, then PAYLEN; else TXBUF is the frame of SUB and PAYBUF[0 .. PAYLEN-1].
PAYBUF, PAYLEN and everything but TXBUF and the completion state are unchanged, and on an error TXBUF too. -/
def Obligations.EncRawBuildsTheFrame : Prop :=
  ∀ (sub : Byte) (s : State), ∃ t, exec (.encRaw sub) s = .next t ∧
    if sub ∉ [0x20, 0x21, 0x22, 0x23, 0x24, 0x26] then
      t = { s with
        opr := 1, status := { s.status with done := true, err := .illegalCommand }
        errInfo := { detail := .badSub, sub := sub, op := 1 }, st := .idle, rxw := false, scnt := 0 }
    else if 22 < s.paylen.toNat then
      t = { s with
        opr := 1, status := { s.status with done := true, err := .encodingError }
        errInfo := { detail := .paylen, sub := sub, op := 1 }, st := .idle, rxw := false, scnt := 0 }
    else
      t.holdsFrame s.regs.devAddr sub (s.payBytes s.paylen.toNat) ∧
      (∀ a, a < 0x80 ∨ 0x9A ≤ a → t.mem.read a = s.mem.read a) ∧
      t = { s with
        mem := t.mem, opr := 1, status := { s.status with done := true, err := .ok }
        errInfo := { detail := .none, sub := 0, op := 0 }, st := .idle, rxw := false, scnt := 0 }

/-- R114: ENC_NUM in every state: BAD_SUB, or ARG packed minimally into PAYBUF and PAYLEN and the frame built in TXBUF. RXBUF and
everything but TXBUF, PAYBUF, PAYLEN and the completion state are unchanged. -/
def Obligations.EncNumPacksAndBuilds : Prop :=
  ∀ (sub : Byte) (s : State), ∃ t, exec (.encNum sub) s = .next t ∧
    if sub ∉ [0x20, 0x21, 0x22, 0x23, 0x24, 0x26] then
      t = { s with
        opr := 2, status := { s.status with done := true, err := .illegalCommand }
        errInfo := { detail := .badSub, sub := sub, op := 2 }, st := .idle, rxw := false, scnt := 0 }
    else
      (∃ pay, isNumberPayload pay s.regs.arg.toNat ∧ t.holdsPayload pay ∧ t.holdsFrame s.regs.devAddr sub pay) ∧
      (∀ i, i < 26 → t.rxByte i = s.rxByte i) ∧
      t = { s with
        mem := t.mem, paylen := t.paylen, opr := 2, status := { s.status with done := true, err := .ok }
        errInfo := { detail := .none, sub := 0, op := 0 }, st := .idle, rxw := false, scnt := 0 }

/-- R115: after a successful ENC_RAW or ENC_NUM a VALIDATE of TXBUF reports CHK_OK = 1. -/
def Obligations.BuiltFrameValidates : Prop :=
  ∀ (sub : Byte) (s t u : State),
    exec (.encRaw sub) s = .next t ∨ exec (.encNum sub) s = .next t → t.status.err = .ok →
    exec (.validate .tx) t = .next u → u.chk.ok = true

/-- R116: VALIDATE in every state: the verdict on all 26 bytes of the selected buffer, whatever RXLEN; no error, and FV, the field
registers and memory are unchanged. -/
def Obligations.ValidateReportsTheVerdict : Prop :=
  ∀ (buf : BufSel) (s : State), ∃ t, exec (.validate buf) s = .next t ∧ isVerdict t.chk s (bufferAt buf) ∧
    t = { s with
      chk := t.chk, opr := 11, status := { s.status with done := true, err := .ok }
      errInfo := { detail := .none, sub := 0, op := 0 }, st := .idle, rxw := false, scnt := 0 }

/-- R116: two buffers that differ in exactly one of their 26 bytes never both validate, so a single-bit error always shows; errors
in two bytes that cancel modulo 256 do not show. -/
def Obligations.OneWrongByteIsDetected : Prop :=
  ∀ (s s' t t' : State) (b : BufSel) (k : Nat), k < 26 →
    s.mem.read (bufferAt b + k) ≠ s'.mem.read (bufferAt b + k) →
    exec (.validate b) s = .next t → exec (.validate b) s' = .next t' →
    ((∀ i, i < 26 → i ≠ k → s.mem.read (bufferAt b + i) = s'.mem.read (bufferAt b + i)) →
      t.chk.ok = true → t'.chk.ok = false) ∧
    (∀ j, j < 25 → k < 25 → j ≠ k →
      (∀ i, i < 26 → i ≠ k → i ≠ j → s.mem.read (bufferAt b + i) = s'.mem.read (bufferAt b + i)) →
      s.mem.read (bufferAt b + k) + s.mem.read (bufferAt b + j)
        = s'.mem.read (bufferAt b + k) + s'.mem.read (bufferAt b + j) →
      t'.chk.ok = t.chk.ok)

/-! ### The decoder and the unpacker (41_status_decode.md) -/

/-- R130: le_value of a field of 1 to 4 bytes inside the buffer is the sum of its bytes times powers of 2^8, and depends on no byte
outside the field. -/
def Obligations.FieldIsLittleEndian : Prop :=
  ∀ (s : State) (b : BufSel) (off w : Nat), 1 ≤ w → w ≤ 4 → off + w ≤ 26 →
    (leValue s b off w).toNat = ∑ i ∈ Finset.range w, (s.mem.read (bufferAt b + off + i)).toNat * 2 ^ (8 * i) ∧
    ∀ s' : State, (∀ i, i < w → s'.mem.read (bufferAt b + off + i) = s.mem.read (bufferAt b + off + i)) →
      leValue s' b off w = leValue s b off w

/-- R69: a field read at a narrower width sees its low-order bytes, and a read that starts inside a field sees its higher-order
bytes as low-order ones. -/
def Obligations.NarrowReadSeesLowBytes : Prop :=
  ∀ (s : State) (b : BufSel) (off w w1 k : Nat), 1 ≤ w1 → w1 < w → w ≤ 4 → off + w ≤ 26 → k < w →
    (leValue s b off w1).toNat = (leValue s b off w).toNat % 2 ^ (8 * w1) ∧
    (leValue s b (off + k) (w - k)).toNat = (leValue s b off w).toNat / 2 ^ (8 * k)

/-- R131, R132: DECODE in every state: LEN before SYNC before CHK, FV and the verdict as the failing check leaves them, ERR_SUB 0;
else the fields of the response and FV = 1, never a NACK. Memory and RXLEN are unchanged. -/
def Obligations.DecodeReadsTheResponse : Prop :=
  ∀ s : State, ∃ t, exec .decode s = .next t ∧
    if s.rxlen.toNat ≠ 26 then
      t = { s with
        opr := 3, status := { s.status with done := true, fv := false, err := .frameError }
        errInfo := { detail := .len, sub := 0, op := 3 }, st := .idle, rxw := false, scnt := 0 }
    else
      isVerdict t.chk s 0xA0 ∧
      if s.rxByte 0 ≠ 0xAA then
        t = { s with
          chk := t.chk, opr := 3, status := { s.status with done := true, fv := false, err := .frameError }
          errInfo := { detail := .sync, sub := 0, op := 3 }, st := .idle, rxw := false, scnt := 0 }
      else if s.regs.chkEn = true ∧ t.chk.ok = false then
        t = { s with
          chk := t.chk, opr := 3, status := { s.status with done := true, fv := false, err := .frameError }
          errInfo := { detail := .chk, sub := 0, op := 3 }, st := .idle, rxw := false, scnt := 0 }
      else
        isDecoded t.dec s ∧
        t = { s with
          chk := t.chk, dec := t.dec, opr := 3, status := { s.status with done := true, fv := true, err := .ok }
          errInfo := { detail := .none, sub := 0, op := 0 }, st := .idle, rxw := false, scnt := 0 }

/-- R133: OUT_ON is off for the state bytes 0 and 128 and on for every other value. -/
def Obligations.OutputOnExceptForZeroAnd128 : Prop :=
  ∀ b : Byte, outputOn b = true ↔ ¬(b.toNat = 0 ∨ b.toNat = 128)

/-- R134: UNPACK in every state, for every OFF and WID: BAD_FIELD for a width other than 1 to 4 or a field that runs past byte 25,
with RESULT unchanged; else RESULT is the field. Memory is unchanged. -/
def Obligations.UnpackExtractsTheField : Prop :=
  ∀ (b : BufSel) (off wid : Nat) (s : State), ∃ t, exec (.unpack b off wid) s = .next t ∧
    if wid < 1 ∨ 4 < wid ∨ 26 < off + wid then
      t = { s with
        opr := 12, status := { s.status with done := true, err := .argumentError }
        errInfo := { detail := .badField, sub := 0, op := 12 }, st := .idle, rxw := false, scnt := 0 }
    else
      t.result.toNat = ∑ i ∈ Finset.range wid, (s.mem.read (bufferAt b + off + i)).toNat * 2 ^ (8 * i) ∧
      t = { s with
        result := t.result, opr := 12, status := { s.status with done := true, err := .ok }
        errInfo := { detail := .none, sub := 0, op := 0 }, st := .idle, rxw := false, scnt := 0 }

/-- R135: a frame that ENC_NUM built, received back unchanged in RXBUF, decodes to the sub-address and the device address sent, and
UNPACK of its bytes 3 to 6 gives the value packed. -/
def Obligations.EchoedFrameGivesBackItsValue : Prop :=
  ∀ (sub : Byte) (s t u : State), exec (.encNum sub) s = .next t → t.status.err = .ok →
    u.rxFrame = t.txFrame → u.rxlen = 26 →
    ∃ v w, exec .decode u = .next v ∧ v.status.err = .ok ∧ v.dec.rxSub = sub ∧ v.dec.rxDev = s.regs.devAddr ∧
      exec (.unpack .rx 3 4) v = .next w ∧ w.status.err = .ok ∧ w.result = s.regs.arg

/-! ### The exchange (42_exchange.md) -/

/-- R158, R159: XFER in every state starts an exchange of TXBUF as it stands: RXBUF and RXLEN are cleared, the window opens, the
FSM is in TX, DONE and the error record are clear; TXBUF, PAYBUF and everything else are unchanged. -/
def Obligations.XferStartsTheExchange : Prop :=
  ∀ s : State, ∃ t, exec .xfer s = .next t ∧ t.responseCleared ∧ sameOutsideRx s t ∧
    t = { s with
      mem := t.mem, rxlen := 0, opr := 4, status := { s.status with done := false, err := .ok }
      errInfo := { detail := .none, sub := 0, op := 0 }, rxw := true, txIdx := 0, tmr := 0, st := .tx }

/-- R153, R154, R56: a byte of the cycle is stored at RXBUF[RXLEN] while the window is open and fewer than 26 are there, else it is
discarded and sets STRAY; without a byte nothing changes. -/
def Obligations.ReceiveStoresOrMarksStray : Prop :=
  ∀ s : State,
    (s.pins.rxValid = false → receive s = s) ∧
    (s.pins.rxValid = true → s.rxw = true → s.rxlen.toNat < 26 →
      (receive s).rxByte s.rxlen.toNat = s.pins.rxData ∧ (receive s).rxlen.toNat = s.rxlen.toNat + 1 ∧
      (∀ a, a ≠ 0xA0 + s.rxlen.toNat → (receive s).mem.read a = s.mem.read a) ∧
      receive s = { s with mem := (receive s).mem, rxlen := (receive s).rxlen }) ∧
    (s.pins.rxValid = true → s.rxw = false ∨ 26 ≤ s.rxlen.toNat →
      receive s = { s with status := { s.status with stray := true } })

/-- R151, R155: a cycle of a command frame's transmission, for each of the six frames (FRAME_REMOTE_CONTROL,
FRAME_OUTPUT_ENABLE, FRAME_MAX_VOLTAGE, FRAME_VOLTAGE_SETPOINT, FRAME_CURRENT_LIMIT, FRAME_STATUS_QUERY) standing in TXBUF, on a sound
link, while a byte is left: nothing changes when the link takes no byte; a byte taken advances TXIDX; the last byte taken with the
response incomplete starts the wait. TXBUF and all memory read as before (R152). In every state but TX the state is unchanged (the
model's choice, log 3). -/
def Obligations.FrameIsSentByteByByte : Prop :=
  ∀ (a : SubAddr) (dev : Byte) (s : State), s.txByte 0 = 0xAA → s.txByte 1 = dev → s.txByte 2 = a.code →
    ∃ t, exec (Instr.ofFrame a dev) s = .next t ∧
      (s.st ≠ .tx → t = s) ∧
      (s.st = .tx → s.pins.lnkErr = false → s.pins.txReady = false →
        sameMemory s t ∧ t = { s with mem := t.mem }) ∧
      (s.st = .tx → s.pins.lnkErr = false → s.pins.txReady = true → s.txIdx.toNat < 25 →
        t.txIdx.toNat = s.txIdx.toNat + 1 ∧ sameMemory s t ∧ t = { s with mem := t.mem, txIdx := t.txIdx }) ∧
      (s.st = .tx → s.pins.lnkErr = false → s.pins.txReady = true → s.txIdx = 25 → s.rxlen.toNat ≠ 26 →
        sameMemory s t ∧ t = { s with mem := t.mem, txIdx := 26, st := .rx, tmr := 0 })

/-- R155, R158: a response that is complete before the last byte is taken ends the exchange at the edge that takes that byte: the
transmitting cycle of each of the six command frames does what the response frame in RXBUF does at the edge it is taken in RX. The
same of the step, for whatever stands in TXBUF and RXBUF (a TXBUF that is no command frame, R159; a response without the sync byte,
R131) and whatever the host writes in that cycle: it is the step of the block that already waits in RX. -/
def Obligations.EarlyResponseEndsWithTheLastByte : Prop :=
  (∀ (a : SubAddr) (dev d sub : Byte) (s : State), s.mem.wf = true → s.st = .tx → s.pins.lnkErr = false →
    s.pins.txReady = true → s.txIdx = 25 → s.txByte 0 = 0xAA → s.txByte 1 = dev → s.txByte 2 = a.code →
    s.rxlen = 26 → s.rxByte 0 = 0xAA → s.rxByte 1 = d → s.rxByte 2 = sub →
    exec (Instr.ofFrame a dev) s = exec (.frameResponse d sub) { s with st := .rx, txIdx := 26 }) ∧
  (∀ s : State, s.Inv → s.pins.rst = false → s.st = .tx → s.pins.lnkErr = false → s.pins.txReady = true → s.txIdx = 25 →
    s.rxlen = 26 ∨ (s.rxlen = 25 ∧ s.pins.rxValid = true) →
    step s = step { s with st := .rx, txIdx := 26 })

/-- R156, R159, R190, R171: a link fault in TX or RX ends the exchange at that edge with COMMUNICATION_ERROR(LINK), over every other
event of the cycle; the byte of the cycle is still stored; ERR_SUB is TXBUF[2] for XFER. In IDLE and in SETTLE, with or without a host
access, the fault changes nothing: the step is the same whatever lnk_err. -/
def Obligations.LinkFaultEndsTheExchange : Prop :=
  ∀ s : State, s.Inv → s.pins.rst = false → s.pins.lnkErr = true →
    (s.exchanging → ∃ t, step s = .next t ∧ t.st = .idle ∧ t.rxw = false ∧ t.status.done = true ∧
      t.status.err = .communicationError ∧ t.errInfo.detail = .link ∧ t.errInfo.op = s.opr ∧
      t.errInfo.sub = s.txByte 2 ∧
      (if s.pins.rxValid = true ∧ s.rxlen.toNat < 26 then
        t.rxlen.toNat = s.rxlen.toNat + 1 ∧ t.rxByte s.rxlen.toNat = s.pins.rxData
       else t.rxlen = s.rxlen) ∧
      (∀ i, i < s.rxlen.toNat → t.rxByte i = s.rxByte i) ∧ t.txFrame = s.txFrame ∧ t.regs = s.regs) ∧
    (¬ s.exchanging → ∀ (p : Pins) (rest : List Pins), s.script = p :: rest →
      step { s with script := { p with lnkErr := false } :: rest } = step s)

/-- R155, R157: a silent cycle in RX: the timeout when RX_TIMEOUT ≠ 0 and TMR + 1 ≥ RX_TIMEOUT, else one more cycle of waiting. Two
clauses are the model's inference, marked DEDUCED: the timeout keeps FV (log 7, unsafe: R54 and R131 against the row 'silence' of vector
V26, whose STATUS 0x00000032 has FV = 0), and TMR counts modulo 2^32 where RX_TIMEOUT = 0 (log 5). -/
def Obligations.SilentCycleWaitsOrTimesOut : Prop :=
  ∀ s : State, s.Inv → s.st = .rx → hostQuiet s.pins = true → linkSilent s.pins = true →
    ∃ t, step s = .next t ∧
      if s.regs.rxTimeout ≠ 0 ∧ s.regs.rxTimeout.toNat ≤ s.tmr.toNat + 1 then
        t = State.tick { s with
          status := { s.status with done := true, err := .communicationError }
          errInfo := { detail := .timeout, sub := s.txByte 2, op := s.opr }
          st := .idle, rxw := false, scnt := 0 }
      else t = State.tick { s with tmr := s.tmr + 1 }

/-- R157: with RX_TIMEOUT = t ≠ 0 a silent link has exactly t cycles after the last byte was taken: the block waits in RX after every
smaller number of them and ends with COMMUNICATION_ERROR(TIMEOUT) at the t-th edge. With RX_TIMEOUT = 0 it waits as long as the link
is silent (R160 (d), R247). The cycles' inputs stand in the model's script (log 1). -/
def Obligations.TimeoutComesAfterExactlyItsCycles : Prop :=
  ∀ (s : State) (ps rest : List Pins), s.Inv → s.st = .rx → s.tmr = 0 → s.script = ps ++ rest →
    (∀ p ∈ ps, hostQuiet p = true ∧ linkSilent p = true) →
    (s.regs.rxTimeout = 0 ∨ ps.length < s.regs.rxTimeout.toNat →
      ∃ t, runSteps ps.length s = .next t ∧ t.st = .rx ∧ t.status.done = false ∧ t.rxlen = s.rxlen ∧ t.mem = s.mem) ∧
    (s.regs.rxTimeout ≠ 0 → ps.length = s.regs.rxTimeout.toNat →
      ∃ t, runSteps ps.length s = .next t ∧ t.st = .idle ∧ t.status.done = true ∧ t.status.err = .communicationError ∧
        t.errInfo.detail = .timeout ∧ t.rxlen = s.rxlen ∧ t.mem = s.mem)

/-- R151, R247: there is no transmit timeout: while tx_ready stays 0 the block waits in TX. The cycles' inputs stand in the
model's script (log 1). -/
def Obligations.TransmissionWaitsForTheLink : Prop :=
  ∀ (s : State) (ps rest : List Pins), s.Inv → s.st = .tx → s.script = ps ++ rest →
    (∀ p ∈ ps, p.rst = false ∧ p.lnkErr = false ∧ p.txReady = false) →
    ∃ t, runSteps ps.length s = .next t ∧ t.st = .tx ∧ t.txIdx = s.txIdx ∧ t.txFrame = s.txFrame ∧
      t.status.done = false ∧ sentBytes ps.length s = []

/-- R152, R158, R159, R248: an XFER written to an idle block, on a link that takes a byte in each of the next 26 cycles and then
delivers 26 bytes in 26 cycles, sends exactly TXBUF in order, completes at the 52nd edge after its acceptance and not before, with the
26 bytes in RXBUF. The cycles' inputs stand in the model's script (log 1). -/
def Obligations.XferCompletesAtEdge52 : Prop :=
  ∀ (s : State) (resp : List Byte) (rest : List Pins), s.st = .idle → resp.length = 26 →
    s.regs.rxTimeout = 0 ∨ 26 ≤ s.regs.rxTimeout.toNat →
    s.script = hostWritePins 0x04 0x00000004 ::
      (List.replicate 26 (linkPins true none) ++ resp.map (fun b => linkPins false (some b)) ++ rest) →
    (∃ t, runSteps 53 s = .next t ∧ t.st = .idle ∧ t.status.done = true ∧ t.status.err = .ok ∧ t.cmd = 4 ∧
      t.rxlen = 26 ∧ t.rxFrame = resp ∧ t.txFrame = s.txFrame ∧ t.dec = s.dec ∧ t.status.fv = s.status.fv) ∧
    sentBytes 53 s = s.txFrame ∧
    (∀ k, 1 ≤ k → k ≤ 52 → ∃ t, runSteps k s = .next t ∧ t.busy = true ∧ t.status.done = false)

/-! ### Responses -/

/-- R159: the response to XFER completes it without error and is not decoded. Memory reads as before. -/
def Obligations.ResponseCompletesXfer : Prop :=
  ∀ (dev sub : Byte) (s : State), s.responseReady dev sub → s.opr = 4 →
    ∃ t, exec (.frameResponse dev sub) s = .next t ∧ sameMemory s t ∧
      t = { s with mem := t.mem, status := { s.status with done := true }, st := .idle, rxw := false, scnt := 0 }

/-- R190 to R195, R131, R136: the response to a single-shot command: FRAME_ERROR(CHK) when CHK_EN = 1 and the checksum is wrong; a
write-type command (OPR 5 to 8) is refused with PROTOCOL_NACK, the fields written, when byte 3 is not 0x80; else the command completes
with the fields written and FV = 1. STATUS (OPR 9) is never refused for its byte 3. A response run in any state but RX is not
taken (the model's choice, log 3). -/
def Obligations.ResponseCompletesSingleShot : Prop :=
  ∀ (a : SubAddr) (dev sub : Byte) (s : State), s.responseReady dev sub → a ≠ .voltageSetpoint →
    s.opr = (match a with
      | .remoteControl => 5 | .outputEnable => 6 | .maxVoltage => 7 | .currentLimit => 8 | .statusQuery => 9
      | .voltageSetpoint => 0) →
    (∃ t, exec (.frameResponse dev sub) s = .next t ∧ sameMemory s t ∧ isVerdict t.chk s 0xA0 ∧
      if s.regs.chkEn = true ∧ s.responseCorrupt then
        t = { s with
          mem := t.mem, chk := t.chk, status := { s.status with done := true, fv := false, err := .frameError }
          errInfo := { detail := .chk, sub := a.code, op := s.opr }, st := .idle, rxw := false, scnt := 0 }
      else if a ≠ .statusQuery ∧ s.rxByte 3 ≠ 0x80 then
        isDecoded t.dec s ∧
        t = { s with
          mem := t.mem, chk := t.chk, dec := t.dec
          status := { s.status with done := true, fv := true, err := .protocolNack }
          errInfo := { detail := .nack, sub := a.code, op := s.opr }, st := .idle, rxw := false, scnt := 0 }
      else
        isDecoded t.dec s ∧
        t = { s with
          mem := t.mem, chk := t.chk, dec := t.dec, status := { s.status with done := true, fv := true }
          st := .idle, rxw := false, scnt := 0 }) ∧
    (∀ u : State, u.st ≠ .rx → exec (.frameResponse dev sub) u = .next u)

/-- R171 parts 4 to 6, R174: the response to a ramp step: COMMUNICATION_ERROR(CHK), not FRAME_ERROR; PROTOCOL_NACK; or the step is
recorded (RAMP_CNT, RAMP_POS, R_V) and the block settles for R_D cycles, or with R_D = 0 completes after the final step or starts the
next one at this edge. -/
def Obligations.ResponseRecordsTheRampStep : Prop :=
  ∀ (dev sub : Byte) (s : State), s.responseReady dev sub → s.opr = 10 →
    ∃ t, exec (.frameResponse dev sub) s = .next t ∧ isVerdict t.chk s 0xA0 ∧
      if s.regs.chkEn = true ∧ s.responseCorrupt then
        sameMemory s t ∧
        t = { s with
          mem := t.mem, chk := t.chk, status := { s.status with done := true, fv := false, err := .communicationError }
          errInfo := { detail := .chk, sub := 0x23, op := 10 }, st := .idle, rxw := false, scnt := 0 }
      else
        isDecoded t.dec s ∧
        if s.rxByte 3 ≠ 0x80 then
          sameMemory s t ∧
          t = { s with
            mem := t.mem, chk := t.chk, dec := t.dec
            status := { s.status with done := true, fv := true, err := .protocolNack }
            errInfo := { detail := .nack, sub := 0x23, op := 10 }, st := .idle, rxw := false, scnt := 0 }
        else
          ∃ r : State, sameMemory s r ∧
            r = { s with
              mem := r.mem, chk := t.chk, dec := t.dec, status := { s.status with fv := true }, rxw := false
              rampCnt := s.rampCnt + 1, rampPos := s.ramp.cand, ramp := { s.ramp with pos := s.ramp.cand } } ∧
            if s.ramp.delay ≠ 0 then t = { r with scnt := s.ramp.delay, st := .settle }
            else if s.ramp.final = true then
              t = { r with status := { r.status with done := true }, st := .idle, scnt := 0 }
            else isRampStep r t

/-- R131, R190, R171, R159: a response without the sync byte, at the edge that completes it in RX or, complete before the last byte is
taken, at the edge that takes that byte in TX (R155): FRAME_ERROR(SYNC) for a single-shot command, COMMUNICATION_ERROR(SYNC) for a ramp
(90_conflicts.md C4), no error for XFER; where it is decoded, FV is cleared, the checksum verdict is written and the field registers
are kept. -/
def Obligations.ResponseWithoutSyncIsJudged : Prop :=
  ∀ s : State, s.Inv → hostQuiet s.pins = true → s.pins.lnkErr = false → (s.rxByte 0).toNat ≠ 0xAA →
    (s.rxlen = 25 ∧ s.pins.rxValid = true) ∨ (s.st = .tx ∧ s.rxlen = 26) →
    s.st = .rx ∨ (s.st = .tx ∧ s.pins.txReady = true ∧ s.txIdx = 25) →
    ∃ t, step s = .next t ∧ t.st = .idle ∧ t.status.done = true ∧ t.rxlen = 26 ∧
      t.rxByte 25 = (if s.rxlen = 25 then s.pins.rxData else s.rxByte 25) ∧ (∀ i, i < 25 → t.rxByte i = s.rxByte i) ∧
      t.dec = s.dec ∧ t.rampCnt = s.rampCnt ∧ t.rampPos = s.rampPos ∧
      if s.opr = 4 then t.status.err = .ok ∧ t.status.fv = s.status.fv ∧ t.chk = s.chk
      else
        isVerdict t.chk t 0xA0 ∧ t.status.fv = false ∧ t.errInfo.detail = .sync ∧ t.errInfo.op = s.opr ∧
        t.errInfo.sub = s.txByte 2 ∧ t.status.err = (if s.opr = 10 then .communicationError else .frameError)

/-! ### The single-shot commands (44_single_shot.md) -/

/-- R191, R192, R190: REMOTE and OUTPUT at acceptance, in every state: BAD_FLAG when the whole word ARG is neither 0 nor 1, with
nothing but the completion state changed; else the flag byte is the payload, the frame of 0x20 or 0x21 is in TXBUF and its exchange
has started. -/
def Obligations.FlagCommandsSendTheFlag : Prop :=
  ∀ (i : Instr) (op : BitVec 4) (a : Byte) (s : State), (i = .remote ∧ op = 5 ∧ a = 0x20) ∨ (i = .output ∧ op = 6 ∧ a = 0x21) →
    ∃ t, exec i s = .next t ∧
      if s.regs.arg.toNat ≤ 1 then
        t.holdsPayload [BitVec.ofNat 8 s.regs.arg.toNat] ∧
        t.holdsFrame s.regs.devAddr a [BitVec.ofNat 8 s.regs.arg.toNat] ∧ t.responseCleared ∧
        t = { s with
          mem := t.mem, paylen := 1, rxlen := 0, opr := op, status := { s.status with done := false, err := .ok }
          errInfo := { detail := .none, sub := 0, op := 0 }, rxw := true, txIdx := 0, tmr := 0, st := .tx }
      else
        t = { s with
          opr := op, status := { s.status with done := true, err := .argumentError }
          errInfo := { detail := .badFlag, sub := a, op := op }, st := .idle, rxw := false, scnt := 0 }

/-- R193, R194, R190: SET_MAXV and SET_IMAX at acceptance, in every state: ARG as a minimal little-endian payload, without offset or
range check; the frame of 0x22 or 0x24 is in TXBUF and its exchange has started. -/
def Obligations.NumericCommandsSendTheNumber : Prop :=
  ∀ (i : Instr) (op : BitVec 4) (a : Byte) (s : State), (i = .setMaxv ∧ op = 7 ∧ a = 0x22) ∨ (i = .setImax ∧ op = 8 ∧ a = 0x24) →
    ∃ t, exec i s = .next t ∧
      (∃ pay, isNumberPayload pay s.regs.arg.toNat ∧ t.holdsPayload pay ∧ t.holdsFrame s.regs.devAddr a pay) ∧
      t.responseCleared ∧
      t = { s with
        mem := t.mem, paylen := t.paylen, rxlen := 0, opr := op, status := { s.status with done := false, err := .ok }
        errInfo := { detail := .none, sub := 0, op := 0 }, rxw := true, txIdx := 0, tmr := 0, st := .tx }

/-- R195, R190: STATUS at acceptance, in every state: PAYLEN = 0 and PAYBUF all zero, the frame of 0x26 is in TXBUF and its exchange has
started. -/
def Obligations.StatusSendsTheQuery : Prop :=
  ∀ s : State, ∃ t, exec .status s = .next t ∧ t.holdsPayload [] ∧ t.holdsFrame s.regs.devAddr 0x26 [] ∧ t.responseCleared ∧
    t = { s with
      mem := t.mem, paylen := 0, rxlen := 0, opr := 9, status := { s.status with done := false, err := .ok }
      errInfo := { detail := .none, sub := 0, op := 0 }, rxw := true, txIdx := 0, tmr := 0, st := .tx }

/-! ### The ramp (43_ramp.md) -/

/-- R170: RAMP at acceptance, in every state: the operands are latched; equal positions complete without error (checked first), a zero
step is ARGUMENT_ERROR(ZERO_STEP), and otherwise the first step starts at this edge. -/
def Obligations.RampStartsItsFirstStep : Prop :=
  ∀ s : State, ∃ t r, exec .ramp s = .next t ∧
    r = { s with
      opr := 10, status := { s.status with done := false, err := .ok }, errInfo := { detail := .none, sub := 0, op := 0 }
      rampPos := s.regs.rampFrom, rampCnt := 0
      ramp := { s.ramp with
        target := s.regs.rampTo, step := s.regs.rampStep, offset := s.regs.rampOffset, delay := s.regs.settle
        pos := s.regs.rampFrom } } ∧
    if s.regs.rampFrom = s.regs.rampTo then
      t = { r with status := { r.status with done := true }, st := .idle, rxw := false, scnt := 0 }
    else if s.regs.rampStep = 0 then
      t = { r with
        status := { r.status with done := true, err := .argumentError }
        errInfo := { detail := .zeroStep, sub := 0x23, op := 10 }, st := .idle, rxw := false, scnt := 0 }
    else
      isRampStep { r with ramp := { r.ramp with up := decide (s.regs.rampFrom.toNat < s.regs.rampTo.toNat) } } t

/-- R174: a cycle in SETTLE counts down while SCNT > 1; at SCNT = 1 it completes the ramp after the final step and otherwise starts
the next step. A byte that arrives there is a stray (R153); a link fault is ignored (R156). -/
def Obligations.SettleCountsThenGoesOn : Prop :=
  ∀ s u : State, s.Inv → s.st = .settle → s.pins.rst = false → s.pins.busWr = false →
    u = { s with status := { s.status with stray := s.status.stray || s.pins.rxValid } } →
    ∃ t, step s = .next (State.tick t) ∧
      if 1 < s.scnt.toNat then t = { u with scnt := s.scnt - 1 }
      else if s.ramp.final = true then
        t = { u with status := { u.status with done := true }, st := .idle, rxw := false, scnt := 0 }
      else isRampStep { u with scnt := 0 } t

/-- R172: a position that a ramp step commands never lies beyond the target, moves in the direction of travel by at most R_S, and by
exactly R_S unless it is the target. -/
def Obligations.NextPositionNeverOvershoots : Prop :=
  ∀ r : RampRegs, r.step ≠ 0 →
    (r.up = true → r.pos.toNat < r.target.toNat →
      r.pos.toNat < (nextPosition r).1.toNat ∧ (nextPosition r).1.toNat ≤ r.target.toNat ∧
      (nextPosition r).1.toNat ≤ r.pos.toNat + r.step.toNat ∧
      ((nextPosition r).2 = true ↔ (nextPosition r).1 = r.target) ∧
      ((nextPosition r).1 ≠ r.target → (nextPosition r).1.toNat = r.pos.toNat + r.step.toNat)) ∧
    (r.up = false → r.target.toNat < r.pos.toNat →
      (nextPosition r).1.toNat < r.pos.toNat ∧ r.target.toNat ≤ (nextPosition r).1.toNat ∧
      r.pos.toNat ≤ (nextPosition r).1.toNat + r.step.toNat ∧
      ((nextPosition r).2 = true ↔ (nextPosition r).1 = r.target) ∧
      ((nextPosition r).1 ≠ r.target → (nextPosition r).1.toNat + r.step.toNat = r.pos.toNat))

/-- R172: a step that ends a running ramp without error leaves RAMP_POS = RAMP_TO and RAMP_CNT = ceil(|T - F| / S); R173: one that
ends it with an error leaves RAMP_POS and RAMP_CNT at an acknowledged step before the target. -/
def Obligations.RampEndsExactlyAtItsTarget : Prop :=
  ∀ s t : State, s.Inv → s.ramping → s.pins.rst = false → step s = .next t → t.st = .idle →
    t.status.done = true ∧
    (t.status.err = .ok → t.rampPos = s.regs.rampTo ∧ t.rampCnt.toNat = rampCommands s.regs) ∧
    (t.status.err ≠ .ok → t.rampCnt.toNat < rampCommands s.regs ∧
      (t.rampPos.toNat : Int) = rampAt s.regs (t.rampCnt.toNat * s.regs.rampStep.toNat))

/-! ### The host bus (20_memory.md, 10_state.md) -/

/-- R24, R64, R65, R72: a write of a read-write register to an idle block, at any of the four addresses of its word: the register reads
back as the value masked to its width, every other address but STATUS reads as before, and of the rest of the state (STATUS, memory, the
hidden registers) nothing changes but STRAY, which a byte received in that cycle sets (R56). -/
def Obligations.WrittenRegisterReadsBackMasked : Prop :=
  ∀ (s : State) (r : Reg) (width : Nat),
    (r, width) ∈ [(Reg.cfg, 2), (.devAddr, 8), (.arg, 32), (.paylen, 5), (.rxlen, 5), (.rxTimeout, 32), (.rampFrom, 32),
      (.rampTo, 32), (.rampStep, 32), (.rampOffset, 32), (.settle, 32)] →
    s.Inv → s.st = .idle → s.pins.rst = false → s.pins.busWr = true → s.pins.busAddr.toNat / 4 = r.addr.toNat / 4 →
    ∃ t, step s = .next t ∧
      (∀ addr : BitVec 8, addr.toNat / 4 = r.addr.toNat / 4 → (busRead t addr).toNat = s.pins.busWdata.toNat % 2 ^ width) ∧
      (∀ addr : BitVec 8, addr.toNat / 4 ≠ r.addr.toNat / 4 → addr.toNat / 4 ≠ 2 → busRead t addr = busRead s addr) ∧
      t = State.tick { s with
        regs := t.regs, paylen := t.paylen, rxlen := t.rxlen
        status := { s.status with stray := s.status.stray || s.pins.rxValid } }

/-- R63, R64: a write of word k of a buffer to an idle block writes its four bytes, least significant first; the bytes that do not
exist ignore it; no other byte changes. -/
def Obligations.BufferWordIsLittleEndian : Prop :=
  ∀ (s t : State) (base size k : Nat), (base, size) ∈ [(0x80, 26), (0xA0, 26), (0xC0, 22)] → 4 * k < size →
    s.Inv → s.st = .idle → s.pins.rst = false → s.pins.busWr = true → s.pins.busAddr.toNat / 4 = base / 4 + k →
    step s = .next t →
    (∀ j, j < 4 → 4 * k + j < size → t.mem.read (base + 4 * k + j) = s.pins.busWdata.extractLsb' (8 * j) 8) ∧
    (∀ a, a < base + 4 * k ∨ base + 4 * k + 4 ≤ a → t.mem.read a = s.mem.read a) ∧
    (∀ addr : BitVec 8, addr.toNat / 4 = base / 4 + k →
      (busRead t addr).toNat = s.pins.busWdata.toNat % 2 ^ (8 * min 4 (size - 4 * k)))

/-- R23, R24, R25, R61, R63, R64, R74: every register reads at its address of the map as its own value, zero-extended where it is narrower
than 32 bits, the ID register as 0x50530001, a buffer word as its four bytes, least significant first; a reserved address reads 0 and
address bits 1:0 are ignored, in every state. The fields of STATUS and of the other words made of fields are in statements of their own
(StatusWordHasItsFields, RecordWordsHaveTheirFields). -/
def Obligations.ReadsFollowTheMap : Prop :=
  ∀ (s : State) (addr : BitVec 8),
    busRead s addr = busRead s (addr &&& 0xFC#8) ∧ busRead s 0x00 = 0x50530001 ∧
    (busRead s 0x04 = s.cmd ∧ busRead s 0x08 = s.statusWord ∧ busRead s 0x0C = s.cfgWord ∧
      (busRead s 0x10).toNat = s.regs.devAddr.toNat ∧ busRead s 0x14 = s.regs.arg ∧
      (busRead s 0x18).toNat = s.paylen.toNat ∧ (busRead s 0x1C).toNat = s.rxlen.toNat ∧
      busRead s 0x20 = s.regs.rxTimeout ∧ busRead s 0x24 = s.regs.rampFrom ∧ busRead s 0x28 = s.regs.rampTo ∧
      busRead s 0x2C = s.regs.rampStep ∧ busRead s 0x30 = s.regs.rampOffset ∧ busRead s 0x34 = s.regs.settle ∧
      busRead s 0x38 = s.rampPos ∧ busRead s 0x3C = s.rampCnt ∧ busRead s 0x40 = s.errInfoWord ∧
      busRead s 0x44 = s.result ∧ busRead s 0x48 = s.decHdrWord ∧ busRead s 0x4C = s.decFlagsWord ∧
      (busRead s 0x50).toNat = s.dec.curMeas.toNat ∧ busRead s 0x54 = s.dec.voltMeas ∧
      (busRead s 0x58).toNat = s.dec.imax.toNat ∧ busRead s 0x5C = s.dec.vmax ∧ busRead s 0x60 = s.dec.vset) ∧
    (∀ base size k j, (base, size) ∈ [(0x80, 26), (0xA0, 26), (0xC0, 22)] → 4 * k < size → j < 4 →
      (busRead s (BitVec.ofNat 8 (base + 4 * k))).extractLsb' (8 * j) 8 =
        if 4 * k + j < size then s.mem.read (base + 4 * k + j) else 0) ∧
    (addr.toNat / 4 = 39 ∨ addr.toNat / 4 = 47 ∨ (25 ≤ addr.toNat / 4 ∧ addr.toNat / 4 ≤ 31) ∨ 54 ≤ addr.toNat / 4 →
      busRead s addr = 0)

/-- R27, R52, R58: STATUS as the host reads it: BUSY, DONE, FV, ERR, FSM, BUSY_WR, STRAY at their bits and 0 in the rest. -/
def Obligations.StatusWordHasItsFields : Prop :=
  ∀ s : State,
    s.statusWord.getLsbD 0 = decide (s.st ≠ .idle) ∧ s.statusWord.getLsbD 1 = s.status.done ∧
    s.statusWord.getLsbD 2 = s.status.fv ∧
    s.statusWord.extractLsb' 4 3 = (match s.status.err with
      | .ok => 0 | .encodingError => 1 | .frameError => 2 | .communicationError => 3 | .protocolNack => 4
      | .illegalCommand => 5 | .argumentError => 6) ∧
    s.statusWord.extractLsb' 8 3 = (match s.st with | .idle => 0 | .tx => 1 | .rx => 2 | .settle => 3) ∧
    s.statusWord.getLsbD 16 = s.status.busyWr ∧ s.statusWord.getLsbD 17 = s.status.stray ∧
    s.statusWord &&& 0xFFFCF888#32 = 0#32

/-- R55, R61, R66: a write that arrives while the block is busy changes no host register, no buffer byte and not CMD: it sets BUSY_WR
when it addresses a register other than STATUS, and nothing when it addresses a reserved address: the step is otherwise that of the
same cycle without the write. -/
def Obligations.BusyWriteIsIgnoredAndMarked : Prop :=
  ∀ (s t u : State) (p : Pins) (rest : List Pins), s.st ≠ .idle → s.script = p :: rest → p.rst = false → p.busWr = true →
    p.busAddr.toNat / 4 ≠ 2 → step s = .next t → step { s with script := { p with busWr := false } :: rest } = .next u →
    t = { u with status := { u.status with busyWr := u.status.busyWr || (regAt p.busAddr).isSome } }

/-- R67, R215: a write of STATUS is taken busy or not: the step is that of the same cycle without the write from the state whose
written W1C bits are cleared, so a bit the block sets at this edge is set after it. -/
def Obligations.StatusWriteClearsThenSets : Prop :=
  ∀ (s : State) (p : Pins) (rest : List Pins), s.script = p :: rest → p.rst = false → p.busWr = true → p.busAddr.toNat / 4 = 2 →
    step s = step { s with
      script := { p with busWr := false } :: rest
      status := { s.status with
        done := s.status.done && !p.busWdata.getLsbD 1
        busyWr := s.status.busyWr && !p.busWdata.getLsbD 16
        stray := s.status.stray && !p.busWdata.getLsbD 17 } }

/-- R61, R65: in an idle block a write of a read-only register or of a reserved address has no effect at all: the step is that of the
same cycle without the write. -/
def Obligations.ReadOnlyAndReservedIgnoreWrites : Prop :=
  ∀ (s : State) (p : Pins) (rest : List Pins), s.st = .idle → s.script = p :: rest → p.rst = false → p.busWr = true →
    (regAt p.busAddr = none ∨ ∃ r ∈ [Reg.id, .rampPos, .rampCnt, .errInfo, .result, .decHdr, .decFlags, .curMeas, .voltMeas,
      .imax, .vmax, .vset], regAt p.busAddr = some r) →
    step s = step { s with script := { p with busWr := false } :: rest }

/-- R62, R72: a host read has no effect: the step is the same whatever the read strobe, and where no write is made whatever the
address. -/
def Obligations.ReadsHaveNoEffect : Prop :=
  ∀ (s : State) (p : Pins) (rest : List Pins) (rd : Bool) (addr : BitVec 8), s.script = p :: rest →
    step { s with script := { p with busRd := rd } :: rest } = step s ∧
    (p.busWr = false → step { s with script := { p with busRd := rd, busAddr := addr } :: rest } = step s)

/-! ### Whole-machine rules -/

/-- R216, R220: nothing stops the block: every step of every state answers a next state, one cycle later (cycle and script: log 1). -/
def Obligations.EveryStepAnswersANextState : Prop :=
  ∀ s : State, ∃ t, step s = .next t ∧ t.cycle = s.cycle + 1 ∧ t.script = s.script.tail

/-- R66, R243: while the block is busy, no step but reset changes a register that only the host writes, nor CMD. Of the operands that the
block writes too (R20: PAYLEN, RXLEN, TXBUF, RXBUF, PAYBUF), a step of a reachable block changes any only where a ramp step starts its
exchange (R171), and otherwise only RXLEN and RXBUF[RXLEN], by a received byte (R154). -/
def Obligations.BusyBlockKeepsItsOperands : Prop :=
  ∀ s t : State, s.st ≠ .idle → s.pins.rst = false → step s = .next t →
    (t.regs = s.regs ∧ t.cmd = s.cmd) ∧
    (s.Inv →
      (s.opr = 10 ∧ (s.st = .tx → s.txIdx ≠ 0) ∧ t.st = .tx ∧ t.txIdx = 0) ∨
      (t.paylen = s.paylen ∧
        if s.pins.rxValid = true ∧ s.st ≠ .settle ∧ s.rxlen.toNat < 26 then
          t.rxlen.toNat = s.rxlen.toNat + 1 ∧ t.rxByte s.rxlen.toNat = s.pins.rxData ∧
          ∀ a, a ≠ 0xA0 + s.rxlen.toNat → t.mem.read a = s.mem.read a
        else t.rxlen = s.rxlen ∧ sameMemory s t))

/-- R38, R39, R41, R42 to R48: a step that is no reset changes RAMP_POS or RAMP_CNT only in a RAMP, RESULT only in an UNPACK that ends
without error, and a decoded-field register only with FV = 1 left behind by a command that decodes. -/
def Obligations.ResultsAreWrittenOnlyByTheirCommands : Prop :=
  ∀ s t : State, s.Inv → s.pins.rst = false → step s = .next t →
    (t.rampPos ≠ s.rampPos ∨ t.rampCnt ≠ s.rampCnt → t.opr = 10) ∧
    (t.result ≠ s.result → t.opr = 12 ∧ t.status.done = true ∧ t.status.err = .ok) ∧
    (t.dec ≠ s.dec → t.status.fv = true ∧ (t.opr = 3 ∨ (5 ≤ t.opr.toNat ∧ t.opr.toNat ≤ 10)))

/-- R53, R212, R218: DONE rises only at a completion: in a step that is no reset DONE becomes 1 only where the command ends, with the
FSM in IDLE, and every command that leaves the engine's states leaves DONE = 1; in the state the step leaves irq is DONE and
IRQ_EN, whatever the inputs of its cycle (in the first cycle of a reset too: log 14, DEDUCED). -/
def Obligations.DoneRisesOnlyAtACompletion : Prop :=
  ∀ s t : State, s.pins.rst = false → step s = .next t →
    (s.status.done = false → t.status.done = true →
      t.st = .idle ∧ (s.st ≠ .idle ∨ (s.pins.busWr = true ∧ s.pins.busAddr.toNat / 4 = 1))) ∧
    (s.st ≠ .idle → t.st = .idle → t.status.done = true) ∧
    (t.irq = true ↔ t.status.done = true ∧ t.regs.irqEn = true)

/-- R240, R241: at an edge with rst = 1 every register takes its reset value, whatever runs, and nothing else happens: ID reads
0x50530001, RAMP_STEP 500, every other address 0. While rst = 1 and after it tx_valid is 0 and rx_ready is 1, and no byte is taken at
that edge (in the first cycle of a reset R240 is taken over R151 by the model's choice, log 13). After the edge, with rst still 1 or not,
irq is 0, its IRQ_EN being 0. -/
def Obligations.ResetEdgeGivesTheResetState : Prop :=
  ∀ s : State, s.pins.rst = true → ∃ t, step s = .next t ∧
    t = { State.reset with script := s.script.tail, cycle := s.cycle + 1 } ∧
    (∀ addr : BitVec 8, busRead t addr =
      if addr.toNat / 4 = 0 then 0x50530001 else if addr.toNat / 4 = 11 then 500 else 0) ∧
    (s.txValid = false ∧ s.rxReady = true ∧ s.sentByte = none) ∧
    t.txValid = false ∧ t.irq = false ∧ t.rxReady = true

/-- The state after reset meets the invariant (R240). -/
def Obligations.ResetMeetsTheInvariant : Prop := State.reset.Inv

/-- Every step keeps the invariant: the memory's canonical form, the engine's counters (R21, R153 to R158, R174), the completion and
decode records (R40, R43, R53, R211), the frame a running command sends (R115) and where a running ramp stands (R172). -/
def Obligations.EveryStepKeepsTheInvariant : Prop :=
  ∀ s t : State, s.Inv → step s = .next t → t.Inv

/-! ### Statements added beside the first ones -/

/-- R28, R40, R42, R43, R211: the words CFG, ERR_INFO, DEC_HDR and DEC_FLAGS as the host reads them: every field at its bits, the detail
as its code, and 0 in the reserved bits. -/
def Obligations.RecordWordsHaveTheirFields : Prop :=
  ∀ s : State,
    ((busRead s 0x0C).getLsbD 0 = s.regs.chkEn ∧ (busRead s 0x0C).getLsbD 1 = s.regs.irqEn ∧
      busRead s 0x0C &&& 0xFFFFFFFC#32 = 0#32) ∧
    ((busRead s 0x40).extractLsb' 0 4 = (match s.errInfo.detail with
        | .none => 0 | .len => 1 | .sync => 2 | .chk => 3 | .timeout => 4 | .link => 5 | .nack => 6 | .paylen => 7
        | .badOp => 8 | .badSub => 9 | .rsvdBits => 10 | .badFlag => 11 | .zeroStep => 12 | .range => 13 | .badField => 14) ∧
      (busRead s 0x40).extractLsb' 8 8 = s.errInfo.sub ∧ (busRead s 0x40).extractLsb' 16 4 = s.errInfo.op ∧
      busRead s 0x40 &&& 0xFFF000F0#32 = 0#32) ∧
    ((busRead s 0x48).extractLsb' 0 8 = s.dec.rxDev ∧ (busRead s 0x48).extractLsb' 8 8 = s.dec.rxSub ∧
      (busRead s 0x48).extractLsb' 16 8 = s.dec.ack ∧ (busRead s 0x48).extractLsb' 24 8 = s.dec.state) ∧
    ((busRead s 0x4C).extractLsb' 0 8 = s.chk.sum ∧ (busRead s 0x4C).extractLsb' 8 8 = s.chk.rcv ∧
      (busRead s 0x4C).getLsbD 16 = s.chk.ok ∧ (busRead s 0x4C).getLsbD 17 = s.dec.ackOk ∧
      (busRead s 0x4C).getLsbD 18 = s.dec.outOn ∧ busRead s 0x4C &&& 0xFFF80000#32 = 0#32)

/-- R154, R155, R157: a cycle in RX in which a byte arrives that leaves the response incomplete: the byte is stored at RXBUF[RXLEN], and
the cycle then times out (R155's row timeout, RXLEN counting the byte) or waits one more cycle (its row otherwise). Two clauses are the
model's inference, marked DEDUCED: the timeout keeps FV (log 7, unsafe: R54 and R131 against the row 'silence' of vector V26, whose
STATUS 0x00000032 has FV = 0), and TMR counts modulo 2^32 where RX_TIMEOUT = 0 (log 5). -/
def Obligations.IncompleteByteIsStoredAndCounted : Prop :=
  ∀ s : State, s.Inv → s.st = .rx → hostQuiet s.pins = true → s.pins.lnkErr = false → s.pins.rxValid = true →
    s.rxlen.toNat < 25 →
    ∃ t, step s = .next t ∧ t.rxlen.toNat = s.rxlen.toNat + 1 ∧ t.rxByte s.rxlen.toNat = s.pins.rxData ∧
      (∀ a, a ≠ 0xA0 + s.rxlen.toNat → t.mem.read a = s.mem.read a) ∧
      if s.regs.rxTimeout ≠ 0 ∧ s.regs.rxTimeout.toNat ≤ s.tmr.toNat + 1 then
        t = State.tick { s with
          mem := t.mem, rxlen := t.rxlen
          status := { s.status with done := true, err := .communicationError }
          errInfo := { detail := .timeout, sub := s.txByte 2, op := s.opr }
          st := .idle, rxw := false, scnt := 0 }
      else t = State.tick { s with mem := t.mem, rxlen := t.rxlen, tmr := s.tmr + 1 }
end

