-- ==== Sys2Proof/Laws/Memory.lean ====
section
/-! SUPPORT. Laws of the byte store: what a read sees after a write, and that every operation keeps the canonical form. -/

namespace Sys2Proof.Machine

theorem Memory.lookup_erase (m : Memory) (a b : Nat) :
    (m.erase a).lookup b = if b = a then unlistedByte else m.lookup b := by
  induction m with
  | nil => simp [Memory.erase, Memory.lookup]
  | cons c m ih =>
    obtain ⟨x, v⟩ := c
    by_cases hx : x = a
    · subst hx
      have : Memory.erase ((x, v) :: m) x = Memory.erase m x := by simp [Memory.erase]
      rw [this, ih]
      by_cases hb : b = x <;> simp [Memory.lookup, hb]
    · have : Memory.erase ((x, v) :: m) a = (x, v) :: Memory.erase m a := by simp [Memory.erase, hx]
      rw [this]
      by_cases hb : b = x
      · subst hb; simp [Memory.lookup, hx]
      · simp [Memory.lookup, hb, ih]

theorem Memory.lookup_insert_of_ne (m : Memory) {a b : Nat} (v : Byte) (h : b ≠ a) :
    (m.insert a v).lookup b = m.lookup b := by
  induction m with
  | nil => simp [Memory.insert, Memory.lookup, h]
  | cons c m ih =>
    obtain ⟨x, w⟩ := c
    by_cases hx : a < x
    · simp [Memory.insert, Memory.lookup, hx, h]
    · by_cases hb : b = x <;> simp [Memory.insert, Memory.lookup, hx, hb, ih]

theorem Memory.lookup_insert_self (m : Memory) {a : Nat} (v : Byte) (h : ∀ c ∈ m, c.1 ≠ a) :
    (m.insert a v).lookup a = v := by
  induction m with
  | nil => simp [Memory.insert, Memory.lookup]
  | cons c m ih =>
    obtain ⟨x, w⟩ := c
    have hx : x ≠ a := h (x, w) (by simp)
    have ih' := ih (fun c hc => h c (by simp [hc]))
    by_cases hlt : a < x <;> simp [Memory.insert, Memory.lookup, hlt, hx.symm, ih']

theorem Memory.not_mem_erase (m : Memory) (a : Nat) : ∀ c ∈ m.erase a, c.1 ≠ a := by
  intro c hc
  simp only [Memory.erase, List.mem_filter, bne_iff_ne] at hc
  exact hc.2

/-- What a read sees after a write of one byte. -/
theorem Memory.read_write (m : Memory) (a b : Nat) (v : Byte) :
    (m.write a v).read b = if b = a ∧ isBufferByte a = true then v else m.read b := by
  unfold Memory.read Memory.write
  by_cases ha : isBufferByte a = true
  · by_cases hb : b = a
    · subst hb
      by_cases hv : v = unlistedByte
      · simp [ha, hv, Memory.lookup_erase]
      · simp [ha, hv, Memory.lookup_insert_self _ v (Memory.not_mem_erase m b)]
    · by_cases hv : v = unlistedByte
      · simp [ha, hv, hb, Memory.lookup_erase]
      · simp [ha, hv, hb, Memory.lookup_insert_of_ne _ v hb, Memory.lookup_erase]
  · simp [ha]

/-- What a read sees after a write of several bytes. -/
theorem Memory.read_writeBytes (vs : List Byte) (m : Memory) (a b : Nat) :
    (m.writeBytes a vs).read b =
      if a ≤ b ∧ b < a + vs.length ∧ isBufferByte b = true then vs.getD (b - a) 0 else m.read b := by
  induction vs generalizing m a with
  | nil =>
    have : ¬ (a ≤ b ∧ b < a + ([] : List Byte).length ∧ isBufferByte b = true) := by simp; omega
    simp only [Memory.writeBytes, if_neg this]
  | cons v vs ih =>
    rw [Memory.writeBytes, ih, Memory.read_write]
    by_cases hB : isBufferByte b = true
    · by_cases hba : b = a
      · subst hba
        have h1 : ¬ (b + 1 ≤ b ∧ b < b + 1 + vs.length ∧ isBufferByte b = true) := by omega
        rw [if_neg h1, if_pos ⟨rfl, hB⟩, if_pos ⟨le_refl _, by simp, hB⟩]
        simp
      · rw [if_neg (fun h : b = a ∧ isBufferByte a = true => hba h.1)]
        by_cases h : a + 1 ≤ b ∧ b < a + 1 + vs.length
        · have hs : b - a = (b - (a + 1)) + 1 := by omega
          rw [if_pos ⟨h.1, h.2, hB⟩, if_pos ⟨by omega, by simp; omega, hB⟩, hs]
          simp
        · rw [if_neg (fun hh => h ⟨hh.1, hh.2.1⟩), if_neg]
          rintro ⟨h1, h2, -⟩
          simp at h2
          omega
    · have h3 : ¬ (b = a ∧ isBufferByte a = true) := by rintro ⟨rfl, h⟩; exact hB h
      rw [if_neg (fun h => hB h.2.2), if_neg h3, if_neg (fun h => hB h.2.2)]

/-- A byte outside the written range reads as before. -/
theorem Memory.read_writeBytes_outside (vs : List Byte) (m : Memory) {a b : Nat} (h : b < a ∨ a + vs.length ≤ b) :
    (m.writeBytes a vs).read b = m.read b := by
  rw [Memory.read_writeBytes, if_neg]
  omega

/-- A byte inside the written range reads as written, where it exists. -/
theorem Memory.read_writeBytes_inside (vs : List Byte) (m : Memory) {a i : Nat} (h : i < vs.length)
    (hB : isBufferByte (a + i) = true) : (m.writeBytes a vs).read (a + i) = vs.getD i 0 := by
  rw [Memory.read_writeBytes, if_pos ⟨by omega, by omega, hB⟩]
  simp

@[simp] theorem Memory.length_readBytes (m : Memory) (a n : Nat) : (m.readBytes a n).length = n := by
  induction n generalizing a with
  | zero => rfl
  | succ n ih => simp [Memory.readBytes, ih]

/-- Byte `i` of a range that is read. -/
theorem Memory.getD_readBytes (m : Memory) (a n i : Nat) (h : i < n) : (m.readBytes a n).getD i 0 = m.read (a + i) := by
  induction n generalizing a i with
  | zero => omega
  | succ n ih =>
    cases i with
    | zero => simp [Memory.readBytes]
    | succ i =>
      have := ih (a + 1) i (by omega)
      simp only [Memory.readBytes, List.getD_cons_succ, this]
      congr 1
      omega

/-- Two memories that agree on a range read the same there. -/
theorem Memory.readBytes_congr (m m' : Memory) (a n : Nat) (h : ∀ i, i < n → m.read (a + i) = m'.read (a + i)) :
    m.readBytes a n = m'.readBytes a n := by
  induction n generalizing a with
  | zero => rfl
  | succ n ih =>
    have h0 := h 0 (by omega)
    have := ih (a + 1) (fun i hi => by have := h (i + 1) (by omega); rwa [show a + (i + 1) = a + 1 + i by omega] at this)
    simp only [Memory.readBytes, this]
    simp at h0
    rw [h0]

/-- Reading what was just written. -/
theorem Memory.readBytes_writeBytes_self (vs : List Byte) (m : Memory) (a : Nat)
    (hB : ∀ i, i < vs.length → isBufferByte (a + i) = true) : (m.writeBytes a vs).readBytes a vs.length = vs := by
  apply List.ext_getElem (by simp)
  intro i h1 h2
  have := Memory.getD_readBytes (m.writeBytes a vs) a vs.length i h2
  rw [Memory.read_writeBytes_inside vs m h2 (hB i h2)] at this
  rw [List.getD_eq_getElem _ _ h1, List.getD_eq_getElem _ _ h2] at this
  exact this

/-- A range disjoint from the written one reads as before. -/
theorem Memory.readBytes_writeBytes_disjoint (vs : List Byte) (m : Memory) (a b n : Nat)
    (h : b + n ≤ a ∨ a + vs.length ≤ b) : (m.writeBytes a vs).readBytes b n = m.readBytes b n :=
  Memory.readBytes_congr _ _ _ _ (fun i hi => Memory.read_writeBytes_outside vs m (by omega))

/-- A range that does not hold the written address reads as before. -/
theorem Memory.readBytes_write_disjoint (m : Memory) (v : Byte) (a b n : Nat) (h : b + n ≤ a ∨ a < b) :
    (m.write a v).readBytes b n = m.readBytes b n :=
  Memory.readBytes_congr _ _ _ _ (fun i hi => by
    rw [Memory.read_write, if_neg]
    rintro ⟨h1, -⟩
    omega)

/-- The canonical form, as propositions. -/
theorem Memory.wf_iff (m : Memory) :
    m.wf = true ↔ m.Pairwise (fun c d => c.1 < d.1) ∧
      ∀ c ∈ m, isBufferByte c.1 = true ∧ c.2 ≠ unlistedByte := by
  simp [Memory.wf]

theorem Memory.mem_insert (m : Memory) (a : Nat) (v : Byte) (c : Host.Cell) (h : c ∈ m.insert a v) :
    c = (a, v) ∨ c ∈ m := by
  induction m with
  | nil => simpa [Memory.insert] using h
  | cons d m ih =>
    obtain ⟨x, w⟩ := d
    by_cases hx : a < x
    · rw [Memory.insert, if_pos hx] at h
      simpa using h
    · rw [Memory.insert, if_neg hx] at h
      rcases List.mem_cons.mp h with h | h
      · exact .inr (by simp [h])
      · rcases ih h with h | h
        · exact .inl h
        · exact .inr (by simp [h])

theorem Memory.pairwise_insert (m : Memory) (a : Nat) (v : Byte) (h : m.Pairwise (fun c d => c.1 < d.1))
    (hn : ∀ c ∈ m, c.1 ≠ a) : (m.insert a v).Pairwise (fun c d => c.1 < d.1) := by
  induction m with
  | nil => simp [Memory.insert]
  | cons d m ih =>
    obtain ⟨x, w⟩ := d
    rw [List.pairwise_cons] at h
    by_cases hx : a < x
    · rw [Memory.insert, if_pos hx]
      refine List.pairwise_cons.mpr ⟨?_, List.pairwise_cons.mpr h⟩
      intro c hc
      rcases List.mem_cons.mp hc with rfl | hc
      · exact hx
      · exact Nat.lt_trans hx (h.1 c hc)
    · rw [Memory.insert, if_neg hx]
      refine List.pairwise_cons.mpr ⟨?_, ih h.2 (fun c hc => hn c (by simp [hc]))⟩
      intro c hc
      have hxa : x ≠ a := hn (x, w) (by simp)
      rcases Memory.mem_insert m a v c hc with rfl | hc
      · show x < a
        omega
      · exact h.1 c hc

/-- A write of one byte keeps the canonical form. -/
theorem Memory.wf_write (m : Memory) (a : Nat) (v : Byte) (h : m.wf = true) : (m.write a v).wf = true := by
  rw [Memory.wf_iff] at h
  unfold Memory.write
  by_cases ha : isBufferByte a = true
  · have hp : (m.erase a).Pairwise (fun c d => c.1 < d.1) := h.1.filter _
    have hm : ∀ c ∈ m.erase a, isBufferByte c.1 = true ∧ c.2 ≠ unlistedByte :=
      fun c hc => h.2 c (List.mem_filter.mp hc).1
    by_cases hv : v = unlistedByte
    · rw [if_pos ha, if_pos hv, Memory.wf_iff]
      exact ⟨hp, hm⟩
    · rw [if_pos ha, if_neg hv, Memory.wf_iff]
      refine ⟨Memory.pairwise_insert _ a v hp (Memory.not_mem_erase m a), ?_⟩
      intro c hc
      rcases Memory.mem_insert _ a v c hc with rfl | hc
      · exact ⟨ha, hv⟩
      · exact hm c hc
  · rw [if_neg ha, Memory.wf_iff]
    exact h

/-- A write of several bytes keeps the canonical form. -/
theorem Memory.wf_writeBytes (vs : List Byte) (m : Memory) (a : Nat) (h : m.wf = true) :
    (m.writeBytes a vs).wf = true := by
  induction vs generalizing m a with
  | nil => exact h
  | cons v vs ih => exact ih _ _ (Memory.wf_write m a v h)

/-- The memory after reset has the canonical form. -/
theorem Memory.wf_reset : State.reset.mem.wf = true := by decide

/-- An address exists exactly inside one of the three buffers (R49 to R51). -/
theorem isBufferByte_iff (a : Nat) :
    isBufferByte a = true ↔ (128 ≤ a ∧ a < 154) ∨ (160 ≤ a ∧ a < 186) ∨ (192 ≤ a ∧ a < 214) := by
  unfold isBufferByte Config.txBase Config.rxBase Config.payBase Config.frameLen Config.payloadMax
  rw [Bool.or_eq_true, Bool.or_eq_true, Bool.and_eq_true, Bool.and_eq_true, Bool.and_eq_true, decide_eq_true_iff,
    decide_eq_true_iff, decide_eq_true_iff, decide_eq_true_iff, decide_eq_true_iff, decide_eq_true_iff]
  omega

/-- Bytes of TXBUF exist. -/
theorem isBufferByte_tx {i : Nat} (h : i < 26) : isBufferByte (Config.txBase + i) = true := by
  rw [isBufferByte_iff]
  unfold Config.txBase
  omega

/-- Bytes of RXBUF exist. -/
theorem isBufferByte_rx {i : Nat} (h : i < 26) : isBufferByte (Config.rxBase + i) = true := by
  rw [isBufferByte_iff]
  unfold Config.rxBase
  omega

/-- Bytes of PAYBUF exist. -/
theorem isBufferByte_pay {i : Nat} (h : i < 22) : isBufferByte (Config.payBase + i) = true := by
  rw [isBufferByte_iff]
  unfold Config.payBase
  omega

/-- The listed byte of a member, where addresses rise. -/
theorem Memory.lookup_of_mem (m : Memory) (h : m.Pairwise (fun c d => c.1 < d.1)) (c : Host.Cell) (hc : c ∈ m) :
    m.lookup c.1 = c.2 := by
  induction m with
  | nil => simp at hc
  | cons d m ih =>
    obtain ⟨x, w⟩ := d
    rw [List.pairwise_cons] at h
    rcases List.mem_cons.mp hc with rfl | hc
    · simp [Memory.lookup]
    · have hx : c.1 ≠ x := by have := h.1 c hc; simp only at this; omega
      simp [Memory.lookup, hx, ih h.2 hc]

/-- An address below every listed one reads as unlisted. -/
theorem Memory.lookup_of_lt (m : Memory) (a : Nat) (h : ∀ c ∈ m, a < c.1) : m.lookup a = unlistedByte := by
  induction m with
  | nil => rfl
  | cons d m ih =>
    have hd : a ≠ d.1 := by have := h d (by simp); omega
    simp [Memory.lookup, hd, ih (fun c hc => h c (by simp [hc]))]

/-- Memories in canonical form that read alike are equal. -/
theorem Memory.eq_of_read (m n : Memory) (hm : m.wf = true) (hn : n.wf = true) (h : ∀ a, m.read a = n.read a) : m = n := by
  rw [Memory.wf_iff] at hm hn
  have hl : ∀ a, m.lookup a = n.lookup a := by
    have key : ∀ (l k : Memory), (∀ c ∈ l, isBufferByte c.1 = true ∧ c.2 ≠ unlistedByte) →
        l.Pairwise (fun c d => c.1 < d.1) → ∀ a, isBufferByte a = false → l.lookup a = unlistedByte := by
      intro l _ hl _ a ha
      induction l with
      | nil => rfl
      | cons d l ih =>
        have hd : a ≠ d.1 := by
          rintro rfl
          have := (hl d (by simp)).1
          simp_all
        simp [Memory.lookup, hd]
        exact ih (fun c hc => hl c (by simp [hc])) (by simp_all)
    intro a
    cases ha : isBufferByte a with
    | true => simpa [Memory.read, ha] using h a
    | false => rw [key m n hm.2 hm.1 a ha, key n m hn.2 hn.1 a ha]
  clear h
  induction m generalizing n with
  | nil =>
    cases n with
    | nil => rfl
    | cons d n =>
      have := hl d.1
      rw [Memory.lookup_of_mem (d :: n) hn.1 d (by simp)] at this
      exact absurd this.symm (hn.2 d (by simp)).2
  | cons c m ih =>
    cases n with
    | nil =>
      have := hl c.1
      rw [Memory.lookup_of_mem (c :: m) hm.1 c (by simp)] at this
      exact absurd this (hm.2 c (by simp)).2
    | cons d n =>
      have hmc := List.pairwise_cons.mp hm.1
      have hnd := List.pairwise_cons.mp hn.1
      have hcd : c.1 = d.1 := by
        rcases Nat.lt_trichotomy c.1 d.1 with hlt | heq | hlt
        · have := hl c.1
          rw [Memory.lookup_of_mem (c :: m) hm.1 c (by simp), Memory.lookup_of_lt (d :: n) c.1] at this
          · exact absurd this (hm.2 c (by simp)).2
          · intro e he
            rcases List.mem_cons.mp he with rfl | he
            · exact hlt
            · exact Nat.lt_trans hlt (hnd.1 e he)
        · exact heq
        · have := hl d.1
          rw [Memory.lookup_of_mem (d :: n) hn.1 d (by simp), Memory.lookup_of_lt (c :: m) d.1] at this
          · exact absurd this.symm (hn.2 d (by simp)).2
          · intro e he
            rcases List.mem_cons.mp he with rfl | he
            · exact hlt
            · exact Nat.lt_trans hlt (hmc.1 e he)
      have hv : c.2 = d.2 := by
        have := hl c.1
        rwa [Memory.lookup_of_mem (c :: m) hm.1 c (by simp), hcd,
          Memory.lookup_of_mem (d :: n) hn.1 d (by simp)] at this
      have hc : c = d := Prod.ext hcd hv
      subst hc
      congr 1
      refine ih n ⟨hmc.2, fun e he => hm.2 e (by simp [he])⟩ ⟨hnd.2, fun e he => hn.2 e (by simp [he])⟩ ?_
      intro a
      by_cases ha : a = c.1
      · subst ha
        rw [Memory.lookup_of_lt m c.1 (fun e he => hmc.1 e he), Memory.lookup_of_lt n c.1 (fun e he => hnd.1 e he)]
      · have := hl a
        simpa [Memory.lookup, ha] using this

/-- Writing back the bytes that stand there changes nothing in a memory in canonical form. -/
theorem Memory.writeBytes_readBack (vs : List Byte) (m : Memory) (a : Nat) (hm : m.wf = true)
    (h : ∀ i, i < vs.length → m.read (a + i) = vs.getD i 0) : m.writeBytes a vs = m := by
  refine Memory.eq_of_read _ _ (Memory.wf_writeBytes vs m a hm) hm (fun b => ?_)
  rw [Memory.read_writeBytes]
  split
  · rename_i hb
    have := h (b - a) (by omega)
    rw [← this]
    congr 1
    omega
  · rfl

end Sys2Proof.Machine
end

