-- ==== Sys2Proof/Laws/State.lean ====
section
/-! SUPPORT. One lemma per field per named update of the state, each true by rfl, so that no later proof unfolds a record update. -/

namespace Sys2Proof.Machine

@[simp] theorem State.tick_cmd (s : State) : s.tick.cmd = s.cmd := rfl
@[simp] theorem State.tick_status (s : State) : s.tick.status = s.status := rfl
@[simp] theorem State.tick_regs (s : State) : s.tick.regs = s.regs := rfl
@[simp] theorem State.tick_paylen (s : State) : s.tick.paylen = s.paylen := rfl
@[simp] theorem State.tick_rxlen (s : State) : s.tick.rxlen = s.rxlen := rfl
@[simp] theorem State.tick_rampPos (s : State) : s.tick.rampPos = s.rampPos := rfl
@[simp] theorem State.tick_rampCnt (s : State) : s.tick.rampCnt = s.rampCnt := rfl
@[simp] theorem State.tick_errInfo (s : State) : s.tick.errInfo = s.errInfo := rfl
@[simp] theorem State.tick_result (s : State) : s.tick.result = s.result := rfl
@[simp] theorem State.tick_dec (s : State) : s.tick.dec = s.dec := rfl
@[simp] theorem State.tick_chk (s : State) : s.tick.chk = s.chk := rfl
@[simp] theorem State.tick_mem (s : State) : s.tick.mem = s.mem := rfl
@[simp] theorem State.tick_st (s : State) : s.tick.st = s.st := rfl
@[simp] theorem State.tick_opr (s : State) : s.tick.opr = s.opr := rfl
@[simp] theorem State.tick_txIdx (s : State) : s.tick.txIdx = s.txIdx := rfl
@[simp] theorem State.tick_rxw (s : State) : s.tick.rxw = s.rxw := rfl
@[simp] theorem State.tick_tmr (s : State) : s.tick.tmr = s.tmr := rfl
@[simp] theorem State.tick_scnt (s : State) : s.tick.scnt = s.scnt := rfl
@[simp] theorem State.tick_ramp (s : State) : s.tick.ramp = s.ramp := rfl
@[simp] theorem State.tick_script (s : State) : s.tick.script = s.script.tail := rfl
@[simp] theorem State.tick_cycle (s : State) : s.tick.cycle = s.cycle + 1 := rfl

@[simp] theorem beginCommand_cmd (op : BitVec 4) (s : State) : (beginCommand op s).cmd = s.cmd := rfl
@[simp] theorem beginCommand_status (op : BitVec 4) (s : State) : (beginCommand op s).status = { s.status with done := false, err := .ok } := rfl
@[simp] theorem beginCommand_regs (op : BitVec 4) (s : State) : (beginCommand op s).regs = s.regs := rfl
@[simp] theorem beginCommand_paylen (op : BitVec 4) (s : State) : (beginCommand op s).paylen = s.paylen := rfl
@[simp] theorem beginCommand_rxlen (op : BitVec 4) (s : State) : (beginCommand op s).rxlen = s.rxlen := rfl
@[simp] theorem beginCommand_rampPos (op : BitVec 4) (s : State) : (beginCommand op s).rampPos = s.rampPos := rfl
@[simp] theorem beginCommand_rampCnt (op : BitVec 4) (s : State) : (beginCommand op s).rampCnt = s.rampCnt := rfl
@[simp] theorem beginCommand_errInfo (op : BitVec 4) (s : State) : (beginCommand op s).errInfo = { detail := .none, sub := 0, op := 0 } := rfl
@[simp] theorem beginCommand_result (op : BitVec 4) (s : State) : (beginCommand op s).result = s.result := rfl
@[simp] theorem beginCommand_dec (op : BitVec 4) (s : State) : (beginCommand op s).dec = s.dec := rfl
@[simp] theorem beginCommand_chk (op : BitVec 4) (s : State) : (beginCommand op s).chk = s.chk := rfl
@[simp] theorem beginCommand_mem (op : BitVec 4) (s : State) : (beginCommand op s).mem = s.mem := rfl
@[simp] theorem beginCommand_st (op : BitVec 4) (s : State) : (beginCommand op s).st = s.st := rfl
@[simp] theorem beginCommand_opr (op : BitVec 4) (s : State) : (beginCommand op s).opr = op := rfl
@[simp] theorem beginCommand_txIdx (op : BitVec 4) (s : State) : (beginCommand op s).txIdx = s.txIdx := rfl
@[simp] theorem beginCommand_rxw (op : BitVec 4) (s : State) : (beginCommand op s).rxw = s.rxw := rfl
@[simp] theorem beginCommand_tmr (op : BitVec 4) (s : State) : (beginCommand op s).tmr = s.tmr := rfl
@[simp] theorem beginCommand_scnt (op : BitVec 4) (s : State) : (beginCommand op s).scnt = s.scnt := rfl
@[simp] theorem beginCommand_ramp (op : BitVec 4) (s : State) : (beginCommand op s).ramp = s.ramp := rfl
@[simp] theorem beginCommand_script (op : BitVec 4) (s : State) : (beginCommand op s).script = s.script := rfl
@[simp] theorem beginCommand_cycle (op : BitVec 4) (s : State) : (beginCommand op s).cycle = s.cycle := rfl

@[simp] theorem completeOk_cmd (s : State) : (completeOk s).cmd = s.cmd := rfl
@[simp] theorem completeOk_status (s : State) : (completeOk s).status = { s.status with done := true } := rfl
@[simp] theorem completeOk_regs (s : State) : (completeOk s).regs = s.regs := rfl
@[simp] theorem completeOk_paylen (s : State) : (completeOk s).paylen = s.paylen := rfl
@[simp] theorem completeOk_rxlen (s : State) : (completeOk s).rxlen = s.rxlen := rfl
@[simp] theorem completeOk_rampPos (s : State) : (completeOk s).rampPos = s.rampPos := rfl
@[simp] theorem completeOk_rampCnt (s : State) : (completeOk s).rampCnt = s.rampCnt := rfl
@[simp] theorem completeOk_errInfo (s : State) : (completeOk s).errInfo = s.errInfo := rfl
@[simp] theorem completeOk_result (s : State) : (completeOk s).result = s.result := rfl
@[simp] theorem completeOk_dec (s : State) : (completeOk s).dec = s.dec := rfl
@[simp] theorem completeOk_chk (s : State) : (completeOk s).chk = s.chk := rfl
@[simp] theorem completeOk_mem (s : State) : (completeOk s).mem = s.mem := rfl
@[simp] theorem completeOk_st (s : State) : (completeOk s).st = .idle := rfl
@[simp] theorem completeOk_opr (s : State) : (completeOk s).opr = s.opr := rfl
@[simp] theorem completeOk_txIdx (s : State) : (completeOk s).txIdx = s.txIdx := rfl
@[simp] theorem completeOk_rxw (s : State) : (completeOk s).rxw = false := rfl
@[simp] theorem completeOk_tmr (s : State) : (completeOk s).tmr = s.tmr := rfl
@[simp] theorem completeOk_scnt (s : State) : (completeOk s).scnt = 0 := rfl
@[simp] theorem completeOk_ramp (s : State) : (completeOk s).ramp = s.ramp := rfl
@[simp] theorem completeOk_script (s : State) : (completeOk s).script = s.script := rfl
@[simp] theorem completeOk_cycle (s : State) : (completeOk s).cycle = s.cycle := rfl

@[simp] theorem raiseError_cmd (c : ErrClass) (d : Detail) (sub : Byte) (s : State) : (raiseError c d sub s).cmd = s.cmd := rfl
@[simp] theorem raiseError_status (c : ErrClass) (d : Detail) (sub : Byte) (s : State) : (raiseError c d sub s).status = { s.status with done := true, err := c } := rfl
@[simp] theorem raiseError_regs (c : ErrClass) (d : Detail) (sub : Byte) (s : State) : (raiseError c d sub s).regs = s.regs := rfl
@[simp] theorem raiseError_paylen (c : ErrClass) (d : Detail) (sub : Byte) (s : State) : (raiseError c d sub s).paylen = s.paylen := rfl
@[simp] theorem raiseError_rxlen (c : ErrClass) (d : Detail) (sub : Byte) (s : State) : (raiseError c d sub s).rxlen = s.rxlen := rfl
@[simp] theorem raiseError_rampPos (c : ErrClass) (d : Detail) (sub : Byte) (s : State) : (raiseError c d sub s).rampPos = s.rampPos := rfl
@[simp] theorem raiseError_rampCnt (c : ErrClass) (d : Detail) (sub : Byte) (s : State) : (raiseError c d sub s).rampCnt = s.rampCnt := rfl
@[simp] theorem raiseError_errInfo (c : ErrClass) (d : Detail) (sub : Byte) (s : State) : (raiseError c d sub s).errInfo = { detail := d, sub := sub, op := s.opr } := rfl
@[simp] theorem raiseError_result (c : ErrClass) (d : Detail) (sub : Byte) (s : State) : (raiseError c d sub s).result = s.result := rfl
@[simp] theorem raiseError_dec (c : ErrClass) (d : Detail) (sub : Byte) (s : State) : (raiseError c d sub s).dec = s.dec := rfl
@[simp] theorem raiseError_chk (c : ErrClass) (d : Detail) (sub : Byte) (s : State) : (raiseError c d sub s).chk = s.chk := rfl
@[simp] theorem raiseError_mem (c : ErrClass) (d : Detail) (sub : Byte) (s : State) : (raiseError c d sub s).mem = s.mem := rfl
@[simp] theorem raiseError_st (c : ErrClass) (d : Detail) (sub : Byte) (s : State) : (raiseError c d sub s).st = .idle := rfl
@[simp] theorem raiseError_opr (c : ErrClass) (d : Detail) (sub : Byte) (s : State) : (raiseError c d sub s).opr = s.opr := rfl
@[simp] theorem raiseError_txIdx (c : ErrClass) (d : Detail) (sub : Byte) (s : State) : (raiseError c d sub s).txIdx = s.txIdx := rfl
@[simp] theorem raiseError_rxw (c : ErrClass) (d : Detail) (sub : Byte) (s : State) : (raiseError c d sub s).rxw = false := rfl
@[simp] theorem raiseError_tmr (c : ErrClass) (d : Detail) (sub : Byte) (s : State) : (raiseError c d sub s).tmr = s.tmr := rfl
@[simp] theorem raiseError_scnt (c : ErrClass) (d : Detail) (sub : Byte) (s : State) : (raiseError c d sub s).scnt = 0 := rfl
@[simp] theorem raiseError_ramp (c : ErrClass) (d : Detail) (sub : Byte) (s : State) : (raiseError c d sub s).ramp = s.ramp := rfl
@[simp] theorem raiseError_script (c : ErrClass) (d : Detail) (sub : Byte) (s : State) : (raiseError c d sub s).script = s.script := rfl
@[simp] theorem raiseError_cycle (c : ErrClass) (d : Detail) (sub : Byte) (s : State) : (raiseError c d sub s).cycle = s.cycle := rfl

@[simp] theorem clearStatus_cmd (w : Word) (s : State) : (clearStatus w s).cmd = s.cmd := rfl
@[simp] theorem clearStatus_status (w : Word) (s : State) : (clearStatus w s).status = { s.status with done := s.status.done && !w.getLsbD 1, busyWr := s.status.busyWr && !w.getLsbD 16, stray := s.status.stray && !w.getLsbD 17 } := rfl
@[simp] theorem clearStatus_regs (w : Word) (s : State) : (clearStatus w s).regs = s.regs := rfl
@[simp] theorem clearStatus_paylen (w : Word) (s : State) : (clearStatus w s).paylen = s.paylen := rfl
@[simp] theorem clearStatus_rxlen (w : Word) (s : State) : (clearStatus w s).rxlen = s.rxlen := rfl
@[simp] theorem clearStatus_rampPos (w : Word) (s : State) : (clearStatus w s).rampPos = s.rampPos := rfl
@[simp] theorem clearStatus_rampCnt (w : Word) (s : State) : (clearStatus w s).rampCnt = s.rampCnt := rfl
@[simp] theorem clearStatus_errInfo (w : Word) (s : State) : (clearStatus w s).errInfo = s.errInfo := rfl
@[simp] theorem clearStatus_result (w : Word) (s : State) : (clearStatus w s).result = s.result := rfl
@[simp] theorem clearStatus_dec (w : Word) (s : State) : (clearStatus w s).dec = s.dec := rfl
@[simp] theorem clearStatus_chk (w : Word) (s : State) : (clearStatus w s).chk = s.chk := rfl
@[simp] theorem clearStatus_mem (w : Word) (s : State) : (clearStatus w s).mem = s.mem := rfl
@[simp] theorem clearStatus_st (w : Word) (s : State) : (clearStatus w s).st = s.st := rfl
@[simp] theorem clearStatus_opr (w : Word) (s : State) : (clearStatus w s).opr = s.opr := rfl
@[simp] theorem clearStatus_txIdx (w : Word) (s : State) : (clearStatus w s).txIdx = s.txIdx := rfl
@[simp] theorem clearStatus_rxw (w : Word) (s : State) : (clearStatus w s).rxw = s.rxw := rfl
@[simp] theorem clearStatus_tmr (w : Word) (s : State) : (clearStatus w s).tmr = s.tmr := rfl
@[simp] theorem clearStatus_scnt (w : Word) (s : State) : (clearStatus w s).scnt = s.scnt := rfl
@[simp] theorem clearStatus_ramp (w : Word) (s : State) : (clearStatus w s).ramp = s.ramp := rfl
@[simp] theorem clearStatus_script (w : Word) (s : State) : (clearStatus w s).script = s.script := rfl
@[simp] theorem clearStatus_cycle (w : Word) (s : State) : (clearStatus w s).cycle = s.cycle := rfl

@[simp] theorem startExchange_cmd (s : State) : (startExchange s).cmd = s.cmd := rfl
@[simp] theorem startExchange_status (s : State) : (startExchange s).status = s.status := rfl
@[simp] theorem startExchange_regs (s : State) : (startExchange s).regs = s.regs := rfl
@[simp] theorem startExchange_paylen (s : State) : (startExchange s).paylen = s.paylen := rfl
@[simp] theorem startExchange_rxlen (s : State) : (startExchange s).rxlen = 0 := rfl
@[simp] theorem startExchange_rampPos (s : State) : (startExchange s).rampPos = s.rampPos := rfl
@[simp] theorem startExchange_rampCnt (s : State) : (startExchange s).rampCnt = s.rampCnt := rfl
@[simp] theorem startExchange_errInfo (s : State) : (startExchange s).errInfo = s.errInfo := rfl
@[simp] theorem startExchange_result (s : State) : (startExchange s).result = s.result := rfl
@[simp] theorem startExchange_dec (s : State) : (startExchange s).dec = s.dec := rfl
@[simp] theorem startExchange_chk (s : State) : (startExchange s).chk = s.chk := rfl
@[simp] theorem startExchange_mem (s : State) : (startExchange s).mem = s.mem.writeBytes Config.rxBase (List.replicate Config.frameLen 0) := by dsimp only [startExchange]
@[simp] theorem startExchange_st (s : State) : (startExchange s).st = .tx := rfl
@[simp] theorem startExchange_opr (s : State) : (startExchange s).opr = s.opr := rfl
@[simp] theorem startExchange_txIdx (s : State) : (startExchange s).txIdx = 0 := rfl
@[simp] theorem startExchange_rxw (s : State) : (startExchange s).rxw = true := rfl
@[simp] theorem startExchange_tmr (s : State) : (startExchange s).tmr = 0 := rfl
@[simp] theorem startExchange_scnt (s : State) : (startExchange s).scnt = s.scnt := rfl
@[simp] theorem startExchange_ramp (s : State) : (startExchange s).ramp = s.ramp := rfl
@[simp] theorem startExchange_script (s : State) : (startExchange s).script = s.script := rfl
@[simp] theorem startExchange_cycle (s : State) : (startExchange s).cycle = s.cycle := rfl

@[simp] theorem setPayload_cmd (pay : List Byte) (s : State) : (setPayload pay s).cmd = s.cmd := rfl
@[simp] theorem setPayload_status (pay : List Byte) (s : State) : (setPayload pay s).status = s.status := rfl
@[simp] theorem setPayload_regs (pay : List Byte) (s : State) : (setPayload pay s).regs = s.regs := rfl
@[simp] theorem setPayload_paylen (pay : List Byte) (s : State) : (setPayload pay s).paylen = BitVec.ofNat 5 pay.length := rfl
@[simp] theorem setPayload_rxlen (pay : List Byte) (s : State) : (setPayload pay s).rxlen = s.rxlen := rfl
@[simp] theorem setPayload_rampPos (pay : List Byte) (s : State) : (setPayload pay s).rampPos = s.rampPos := rfl
@[simp] theorem setPayload_rampCnt (pay : List Byte) (s : State) : (setPayload pay s).rampCnt = s.rampCnt := rfl
@[simp] theorem setPayload_errInfo (pay : List Byte) (s : State) : (setPayload pay s).errInfo = s.errInfo := rfl
@[simp] theorem setPayload_result (pay : List Byte) (s : State) : (setPayload pay s).result = s.result := rfl
@[simp] theorem setPayload_dec (pay : List Byte) (s : State) : (setPayload pay s).dec = s.dec := rfl
@[simp] theorem setPayload_chk (pay : List Byte) (s : State) : (setPayload pay s).chk = s.chk := rfl
@[simp] theorem setPayload_mem (pay : List Byte) (s : State) : (setPayload pay s).mem = s.mem.writeBytes Config.payBase (pay ++ List.replicate (Config.payloadMax - pay.length) 0) := rfl
@[simp] theorem setPayload_st (pay : List Byte) (s : State) : (setPayload pay s).st = s.st := rfl
@[simp] theorem setPayload_opr (pay : List Byte) (s : State) : (setPayload pay s).opr = s.opr := rfl
@[simp] theorem setPayload_txIdx (pay : List Byte) (s : State) : (setPayload pay s).txIdx = s.txIdx := rfl
@[simp] theorem setPayload_rxw (pay : List Byte) (s : State) : (setPayload pay s).rxw = s.rxw := rfl
@[simp] theorem setPayload_tmr (pay : List Byte) (s : State) : (setPayload pay s).tmr = s.tmr := rfl
@[simp] theorem setPayload_scnt (pay : List Byte) (s : State) : (setPayload pay s).scnt = s.scnt := rfl
@[simp] theorem setPayload_ramp (pay : List Byte) (s : State) : (setPayload pay s).ramp = s.ramp := rfl
@[simp] theorem setPayload_script (pay : List Byte) (s : State) : (setPayload pay s).script = s.script := rfl
@[simp] theorem setPayload_cycle (pay : List Byte) (s : State) : (setPayload pay s).cycle = s.cycle := rfl

@[simp] theorem buildFrame_cmd (dev sub : Byte) (pay : List Byte) (s : State) : (buildFrame dev sub pay s).cmd = s.cmd := rfl
@[simp] theorem buildFrame_status (dev sub : Byte) (pay : List Byte) (s : State) : (buildFrame dev sub pay s).status = s.status := rfl
@[simp] theorem buildFrame_regs (dev sub : Byte) (pay : List Byte) (s : State) : (buildFrame dev sub pay s).regs = s.regs := rfl
@[simp] theorem buildFrame_paylen (dev sub : Byte) (pay : List Byte) (s : State) : (buildFrame dev sub pay s).paylen = s.paylen := rfl
@[simp] theorem buildFrame_rxlen (dev sub : Byte) (pay : List Byte) (s : State) : (buildFrame dev sub pay s).rxlen = s.rxlen := rfl
@[simp] theorem buildFrame_rampPos (dev sub : Byte) (pay : List Byte) (s : State) : (buildFrame dev sub pay s).rampPos = s.rampPos := rfl
@[simp] theorem buildFrame_rampCnt (dev sub : Byte) (pay : List Byte) (s : State) : (buildFrame dev sub pay s).rampCnt = s.rampCnt := rfl
@[simp] theorem buildFrame_errInfo (dev sub : Byte) (pay : List Byte) (s : State) : (buildFrame dev sub pay s).errInfo = s.errInfo := rfl
@[simp] theorem buildFrame_result (dev sub : Byte) (pay : List Byte) (s : State) : (buildFrame dev sub pay s).result = s.result := rfl
@[simp] theorem buildFrame_dec (dev sub : Byte) (pay : List Byte) (s : State) : (buildFrame dev sub pay s).dec = s.dec := rfl
@[simp] theorem buildFrame_chk (dev sub : Byte) (pay : List Byte) (s : State) : (buildFrame dev sub pay s).chk = s.chk := rfl
@[simp] theorem buildFrame_mem (dev sub : Byte) (pay : List Byte) (s : State) : (buildFrame dev sub pay s).mem = s.mem.writeBytes Config.txBase (frameBytes dev sub pay) := rfl
@[simp] theorem buildFrame_st (dev sub : Byte) (pay : List Byte) (s : State) : (buildFrame dev sub pay s).st = s.st := rfl
@[simp] theorem buildFrame_opr (dev sub : Byte) (pay : List Byte) (s : State) : (buildFrame dev sub pay s).opr = s.opr := rfl
@[simp] theorem buildFrame_txIdx (dev sub : Byte) (pay : List Byte) (s : State) : (buildFrame dev sub pay s).txIdx = s.txIdx := rfl
@[simp] theorem buildFrame_rxw (dev sub : Byte) (pay : List Byte) (s : State) : (buildFrame dev sub pay s).rxw = s.rxw := rfl
@[simp] theorem buildFrame_tmr (dev sub : Byte) (pay : List Byte) (s : State) : (buildFrame dev sub pay s).tmr = s.tmr := rfl
@[simp] theorem buildFrame_scnt (dev sub : Byte) (pay : List Byte) (s : State) : (buildFrame dev sub pay s).scnt = s.scnt := rfl
@[simp] theorem buildFrame_ramp (dev sub : Byte) (pay : List Byte) (s : State) : (buildFrame dev sub pay s).ramp = s.ramp := rfl
@[simp] theorem buildFrame_script (dev sub : Byte) (pay : List Byte) (s : State) : (buildFrame dev sub pay s).script = s.script := rfl
@[simp] theorem buildFrame_cycle (dev sub : Byte) (pay : List Byte) (s : State) : (buildFrame dev sub pay s).cycle = s.cycle := rfl

@[simp] theorem rampLatch_cmd (s : State) : (rampLatch s).cmd = s.cmd := rfl
@[simp] theorem rampLatch_status (s : State) : (rampLatch s).status = s.status := rfl
@[simp] theorem rampLatch_regs (s : State) : (rampLatch s).regs = s.regs := rfl
@[simp] theorem rampLatch_paylen (s : State) : (rampLatch s).paylen = s.paylen := rfl
@[simp] theorem rampLatch_rxlen (s : State) : (rampLatch s).rxlen = s.rxlen := rfl
@[simp] theorem rampLatch_rampPos (s : State) : (rampLatch s).rampPos = s.regs.rampFrom := rfl
@[simp] theorem rampLatch_rampCnt (s : State) : (rampLatch s).rampCnt = 0 := rfl
@[simp] theorem rampLatch_errInfo (s : State) : (rampLatch s).errInfo = s.errInfo := rfl
@[simp] theorem rampLatch_result (s : State) : (rampLatch s).result = s.result := rfl
@[simp] theorem rampLatch_dec (s : State) : (rampLatch s).dec = s.dec := rfl
@[simp] theorem rampLatch_chk (s : State) : (rampLatch s).chk = s.chk := rfl
@[simp] theorem rampLatch_mem (s : State) : (rampLatch s).mem = s.mem := rfl
@[simp] theorem rampLatch_st (s : State) : (rampLatch s).st = s.st := rfl
@[simp] theorem rampLatch_opr (s : State) : (rampLatch s).opr = s.opr := rfl
@[simp] theorem rampLatch_txIdx (s : State) : (rampLatch s).txIdx = s.txIdx := rfl
@[simp] theorem rampLatch_rxw (s : State) : (rampLatch s).rxw = s.rxw := rfl
@[simp] theorem rampLatch_tmr (s : State) : (rampLatch s).tmr = s.tmr := rfl
@[simp] theorem rampLatch_scnt (s : State) : (rampLatch s).scnt = s.scnt := rfl
@[simp] theorem rampLatch_ramp (s : State) : (rampLatch s).ramp = { s.ramp with target := s.regs.rampTo, step := s.regs.rampStep, offset := s.regs.rampOffset, delay := s.regs.settle, pos := s.regs.rampFrom } := rfl
@[simp] theorem rampLatch_script (s : State) : (rampLatch s).script = s.script := rfl
@[simp] theorem rampLatch_cycle (s : State) : (rampLatch s).cycle = s.cycle := rfl

@[simp] theorem putHeader_cmd (base : Nat) (b0 b1 b2 : Byte) (s : State) : (putHeader base b0 b1 b2 s).cmd = s.cmd := rfl
@[simp] theorem putHeader_status (base : Nat) (b0 b1 b2 : Byte) (s : State) : (putHeader base b0 b1 b2 s).status = s.status := rfl
@[simp] theorem putHeader_regs (base : Nat) (b0 b1 b2 : Byte) (s : State) : (putHeader base b0 b1 b2 s).regs = s.regs := rfl
@[simp] theorem putHeader_paylen (base : Nat) (b0 b1 b2 : Byte) (s : State) : (putHeader base b0 b1 b2 s).paylen = s.paylen := rfl
@[simp] theorem putHeader_rxlen (base : Nat) (b0 b1 b2 : Byte) (s : State) : (putHeader base b0 b1 b2 s).rxlen = s.rxlen := rfl
@[simp] theorem putHeader_rampPos (base : Nat) (b0 b1 b2 : Byte) (s : State) : (putHeader base b0 b1 b2 s).rampPos = s.rampPos := rfl
@[simp] theorem putHeader_rampCnt (base : Nat) (b0 b1 b2 : Byte) (s : State) : (putHeader base b0 b1 b2 s).rampCnt = s.rampCnt := rfl
@[simp] theorem putHeader_errInfo (base : Nat) (b0 b1 b2 : Byte) (s : State) : (putHeader base b0 b1 b2 s).errInfo = s.errInfo := rfl
@[simp] theorem putHeader_result (base : Nat) (b0 b1 b2 : Byte) (s : State) : (putHeader base b0 b1 b2 s).result = s.result := rfl
@[simp] theorem putHeader_dec (base : Nat) (b0 b1 b2 : Byte) (s : State) : (putHeader base b0 b1 b2 s).dec = s.dec := rfl
@[simp] theorem putHeader_chk (base : Nat) (b0 b1 b2 : Byte) (s : State) : (putHeader base b0 b1 b2 s).chk = s.chk := rfl
@[simp] theorem putHeader_mem (base : Nat) (b0 b1 b2 : Byte) (s : State) : (putHeader base b0 b1 b2 s).mem = s.mem.writeBytes base [b0, b1, b2] := rfl
@[simp] theorem putHeader_st (base : Nat) (b0 b1 b2 : Byte) (s : State) : (putHeader base b0 b1 b2 s).st = s.st := rfl
@[simp] theorem putHeader_opr (base : Nat) (b0 b1 b2 : Byte) (s : State) : (putHeader base b0 b1 b2 s).opr = s.opr := rfl
@[simp] theorem putHeader_txIdx (base : Nat) (b0 b1 b2 : Byte) (s : State) : (putHeader base b0 b1 b2 s).txIdx = s.txIdx := rfl
@[simp] theorem putHeader_rxw (base : Nat) (b0 b1 b2 : Byte) (s : State) : (putHeader base b0 b1 b2 s).rxw = s.rxw := rfl
@[simp] theorem putHeader_tmr (base : Nat) (b0 b1 b2 : Byte) (s : State) : (putHeader base b0 b1 b2 s).tmr = s.tmr := rfl
@[simp] theorem putHeader_scnt (base : Nat) (b0 b1 b2 : Byte) (s : State) : (putHeader base b0 b1 b2 s).scnt = s.scnt := rfl
@[simp] theorem putHeader_ramp (base : Nat) (b0 b1 b2 : Byte) (s : State) : (putHeader base b0 b1 b2 s).ramp = s.ramp := rfl
@[simp] theorem putHeader_script (base : Nat) (b0 b1 b2 : Byte) (s : State) : (putHeader base b0 b1 b2 s).script = s.script := rfl
@[simp] theorem putHeader_cycle (base : Nat) (b0 b1 b2 : Byte) (s : State) : (putHeader base b0 b1 b2 s).cycle = s.cycle := rfl

@[simp] theorem writeBufWord_cmd (base k : Nat) (v : Word) (s : State) : (writeBufWord base k v s).cmd = s.cmd := rfl
@[simp] theorem writeBufWord_status (base k : Nat) (v : Word) (s : State) : (writeBufWord base k v s).status = s.status := rfl
@[simp] theorem writeBufWord_regs (base k : Nat) (v : Word) (s : State) : (writeBufWord base k v s).regs = s.regs := rfl
@[simp] theorem writeBufWord_paylen (base k : Nat) (v : Word) (s : State) : (writeBufWord base k v s).paylen = s.paylen := rfl
@[simp] theorem writeBufWord_rxlen (base k : Nat) (v : Word) (s : State) : (writeBufWord base k v s).rxlen = s.rxlen := rfl
@[simp] theorem writeBufWord_rampPos (base k : Nat) (v : Word) (s : State) : (writeBufWord base k v s).rampPos = s.rampPos := rfl
@[simp] theorem writeBufWord_rampCnt (base k : Nat) (v : Word) (s : State) : (writeBufWord base k v s).rampCnt = s.rampCnt := rfl
@[simp] theorem writeBufWord_errInfo (base k : Nat) (v : Word) (s : State) : (writeBufWord base k v s).errInfo = s.errInfo := rfl
@[simp] theorem writeBufWord_result (base k : Nat) (v : Word) (s : State) : (writeBufWord base k v s).result = s.result := rfl
@[simp] theorem writeBufWord_dec (base k : Nat) (v : Word) (s : State) : (writeBufWord base k v s).dec = s.dec := rfl
@[simp] theorem writeBufWord_chk (base k : Nat) (v : Word) (s : State) : (writeBufWord base k v s).chk = s.chk := rfl
@[simp] theorem writeBufWord_mem (base k : Nat) (v : Word) (s : State) : (writeBufWord base k v s).mem = s.mem.writeBytes (base + 4 * k) (bytesOfWord v) := rfl
@[simp] theorem writeBufWord_st (base k : Nat) (v : Word) (s : State) : (writeBufWord base k v s).st = s.st := rfl
@[simp] theorem writeBufWord_opr (base k : Nat) (v : Word) (s : State) : (writeBufWord base k v s).opr = s.opr := rfl
@[simp] theorem writeBufWord_txIdx (base k : Nat) (v : Word) (s : State) : (writeBufWord base k v s).txIdx = s.txIdx := rfl
@[simp] theorem writeBufWord_rxw (base k : Nat) (v : Word) (s : State) : (writeBufWord base k v s).rxw = s.rxw := rfl
@[simp] theorem writeBufWord_tmr (base k : Nat) (v : Word) (s : State) : (writeBufWord base k v s).tmr = s.tmr := rfl
@[simp] theorem writeBufWord_scnt (base k : Nat) (v : Word) (s : State) : (writeBufWord base k v s).scnt = s.scnt := rfl
@[simp] theorem writeBufWord_ramp (base k : Nat) (v : Word) (s : State) : (writeBufWord base k v s).ramp = s.ramp := rfl
@[simp] theorem writeBufWord_script (base k : Nat) (v : Word) (s : State) : (writeBufWord base k v s).script = s.script := rfl
@[simp] theorem writeBufWord_cycle (base k : Nat) (v : Word) (s : State) : (writeBufWord base k v s).cycle = s.cycle := rfl

@[simp] theorem resetEdge_cmd (s : State) : (resetEdge s).cmd = State.reset.cmd := rfl
@[simp] theorem resetEdge_status (s : State) : (resetEdge s).status = State.reset.status := rfl
@[simp] theorem resetEdge_regs (s : State) : (resetEdge s).regs = State.reset.regs := rfl
@[simp] theorem resetEdge_paylen (s : State) : (resetEdge s).paylen = State.reset.paylen := rfl
@[simp] theorem resetEdge_rxlen (s : State) : (resetEdge s).rxlen = State.reset.rxlen := rfl
@[simp] theorem resetEdge_rampPos (s : State) : (resetEdge s).rampPos = State.reset.rampPos := rfl
@[simp] theorem resetEdge_rampCnt (s : State) : (resetEdge s).rampCnt = State.reset.rampCnt := rfl
@[simp] theorem resetEdge_errInfo (s : State) : (resetEdge s).errInfo = State.reset.errInfo := rfl
@[simp] theorem resetEdge_result (s : State) : (resetEdge s).result = State.reset.result := rfl
@[simp] theorem resetEdge_dec (s : State) : (resetEdge s).dec = State.reset.dec := rfl
@[simp] theorem resetEdge_chk (s : State) : (resetEdge s).chk = State.reset.chk := rfl
@[simp] theorem resetEdge_mem (s : State) : (resetEdge s).mem = State.reset.mem := rfl
@[simp] theorem resetEdge_st (s : State) : (resetEdge s).st = State.reset.st := rfl
@[simp] theorem resetEdge_opr (s : State) : (resetEdge s).opr = State.reset.opr := rfl
@[simp] theorem resetEdge_txIdx (s : State) : (resetEdge s).txIdx = State.reset.txIdx := rfl
@[simp] theorem resetEdge_rxw (s : State) : (resetEdge s).rxw = State.reset.rxw := rfl
@[simp] theorem resetEdge_tmr (s : State) : (resetEdge s).tmr = State.reset.tmr := rfl
@[simp] theorem resetEdge_scnt (s : State) : (resetEdge s).scnt = State.reset.scnt := rfl
@[simp] theorem resetEdge_ramp (s : State) : (resetEdge s).ramp = State.reset.ramp := rfl
@[simp] theorem resetEdge_script (s : State) : (resetEdge s).script = s.script := rfl
@[simp] theorem resetEdge_cycle (s : State) : (resetEdge s).cycle = s.cycle := rfl

end Sys2Proof.Machine
end

