-- ==== Sys2Proof/Laws/Ops.lean ====
section
/-! SUPPORT. One lemma per shared operation that says once everything it can do, and what the frame procedures leave in the
buffers. The provers cite these instead of unfolding the operations. -/

namespace Sys2Proof.Machine

/-! ### Frames and payloads -/

@[simp] theorem length_leBytes (v : Word) (n : Nat) : (leBytes v n).length = n := by
  induction n generalizing v with
  | zero => rfl
  | succ n ih => simp [leBytes, ih]

theorem nbytes_le (v : Word) : nbytes v ≤ 4 := by
  unfold nbytes
  split
  · omega
  · split
    · omega
    · split <;> omega

@[simp] theorem length_numericPayload (v : Word) : (numericPayload v).length = nbytes v := by simp [numericPayload]

/-- A flag payload is one byte, the low byte of ARG, and ARG is 0 or 1 (R191). -/
theorem flagPayload_eq_some (arg : Word) (pay : List Byte) :
    flagPayload arg = some pay ↔ (arg = 0 ∨ arg = 1) ∧ pay = [arg.extractLsb' 0 8] := by
  unfold flagPayload
  by_cases h : arg = 0 ∨ arg = 1
  · rw [if_pos h, Option.some.injEq]
    exact ⟨fun e => ⟨h, e.symm⟩, fun e => e.2.symm⟩
  · rw [if_neg h]
    exact ⟨fun e => absurd e (by simp), fun e => absurd e.1 h⟩

theorem length_frameBody (dev sub : Byte) (pay : List Byte) (h : pay.length ≤ 22) :
    (frameBody dev sub pay).length = 25 := by
  simp [frameBody, Config.payloadMax]; omega

/-- A frame is 26 bytes (R80, R115). -/
theorem length_frameBytes (dev sub : Byte) (pay : List Byte) (h : pay.length ≤ 22) :
    (frameBytes dev sub pay).length = 26 := by
  simp [frameBytes, length_frameBody dev sub pay h]

/-- After a build TXBUF holds the frame (R112). -/
theorem txFrame_buildFrame (dev sub : Byte) (pay : List Byte) (s : State) (h : pay.length ≤ 22) :
    (buildFrame dev sub pay s).txFrame = frameBytes dev sub pay := by
  have hl := length_frameBytes dev sub pay h
  have := Memory.readBytes_writeBytes_self (frameBytes dev sub pay) s.mem Config.txBase
    (fun i hi => isBufferByte_tx (by omega))
  rw [hl] at this
  exact this

/-- A build leaves every byte outside TXBUF (R112). -/
theorem read_buildFrame_outside (dev sub : Byte) (pay : List Byte) (s : State) (h : pay.length ≤ 22) (a : Nat)
    (ha : a < 0x80 ∨ 0x9A ≤ a) : (buildFrame dev sub pay s).mem.read a = s.mem.read a := by
  have hl := length_frameBytes dev sub pay h
  exact Memory.read_writeBytes_outside _ _ (by rw [hl]; unfold Config.txBase; omega)

theorem length_payImage (pay : List Byte) (h : pay.length ≤ 22) :
    (pay ++ List.replicate (Config.payloadMax - pay.length) 0).length = 22 := by
  simp [Config.payloadMax]; omega

/-- After a payload is set PAYBUF holds it and zeros behind it (R114). -/
theorem payBytes_setPayload_all (pay : List Byte) (s : State) (h : pay.length ≤ 22) :
    (setPayload pay s).payBytes 22 = pay ++ List.replicate (22 - pay.length) 0 := by
  have hl := length_payImage pay h
  have := Memory.readBytes_writeBytes_self (pay ++ List.replicate (Config.payloadMax - pay.length) 0) s.mem
    Config.payBase (fun i hi => isBufferByte_pay (by omega))
  rw [hl] at this
  exact this

/-- The payload bytes themselves. -/
theorem payBytes_setPayload (pay : List Byte) (s : State) (h : pay.length ≤ 22) :
    (setPayload pay s).payBytes pay.length = pay := by
  apply List.ext_getElem (by simp [State.payBytes])
  intro i h1 h2
  have hi : i < (pay ++ List.replicate (Config.payloadMax - pay.length) 0).length := by simp; omega
  have := Memory.read_writeBytes_inside (pay ++ List.replicate (Config.payloadMax - pay.length) 0) s.mem
    (a := Config.payBase) hi (isBufferByte_pay (by omega))
  have h3 := Memory.getD_readBytes (setPayload pay s).mem Config.payBase pay.length i h2
  rw [setPayload_mem, this, List.getD_eq_getElem _ _ hi, List.getElem_append_left h2] at h3
  rw [List.getD_eq_getElem _ _ (by simpa [State.payBytes] using h1)] at h3
  exact h3

/-- Setting a payload leaves every byte outside PAYBUF. -/
theorem read_setPayload_outside (pay : List Byte) (s : State) (h : pay.length ≤ 22) (a : Nat)
    (ha : a < 0xC0 ∨ 0xD6 ≤ a) : (setPayload pay s).mem.read a = s.mem.read a := by
  have hl := length_payImage pay h
  exact Memory.read_writeBytes_outside _ _ (by rw [hl]; unfold Config.payBase; omega)

/-- Starting an exchange leaves every byte outside RXBUF. -/
theorem read_startExchange_outside (s : State) (a : Nat) (ha : a < 0xA0 ∨ 0xBA ≤ a) :
    (startExchange s).mem.read a = s.mem.read a := by
  rw [startExchange_mem]
  exact Memory.read_writeBytes_outside _ _ (by simp only [List.length_replicate, Config.rxBase, Config.frameLen]; omega)

/-- Starting an exchange clears RXBUF (R154). -/
theorem rxFrame_startExchange (s : State) : (startExchange s).rxFrame = List.replicate 26 0 := by
  have := Memory.readBytes_writeBytes_self (List.replicate 26 0) s.mem Config.rxBase
    (fun i hi => isBufferByte_rx (by simpa using hi))
  rw [List.length_replicate] at this
  unfold State.rxFrame
  rw [startExchange_mem]
  exact this

theorem txFrame_startExchange (s : State) : (startExchange s).txFrame = s.txFrame :=
  Memory.readBytes_congr _ _ _ _ (fun i hi => read_startExchange_outside s _ (by
    have : i < 26 := hi
    unfold Config.txBase; omega))

theorem payBytes_startExchange (s : State) (n : Nat) : (startExchange s).payBytes n = s.payBytes n :=
  Memory.readBytes_congr _ _ _ _ (fun i hi => read_startExchange_outside s _ (by unfold Config.payBase; omega))

/-! ### The shared operations -/

/-- Receiving: no byte, a byte stored in an open window, or a stray (R153). -/
theorem receive_cases (s : State) :
    (s.pins.rxValid = false ∧ receive s = s) ∨
    (s.pins.rxValid = true ∧ s.rxw = true ∧ s.rxlen.toNat < 26 ∧
      receive s = { s with mem := s.mem.write (0xA0 + s.rxlen.toNat) s.pins.rxData, rxlen := s.rxlen + 1 }) ∨
    (s.pins.rxValid = true ∧ ¬(s.rxw = true ∧ s.rxlen.toNat < 26) ∧
      receive s = { s with status := { s.status with stray := true } }) := by
  unfold receive
  by_cases hv : s.pins.rxValid = true
  · by_cases hw : s.rxw = true ∧ s.rxlen.toNat < 26
    · refine .inr (.inl ⟨hv, hw.1, hw.2, ?_⟩)
      rw [if_pos hv, if_pos (show s.rxw = true ∧ s.rxlen.toNat < Config.frameLen from hw)]
      rfl
    · refine .inr (.inr ⟨hv, hw, ?_⟩)
      rw [if_pos hv, if_neg (show ¬(s.rxw = true ∧ s.rxlen.toNat < Config.frameLen) from hw)]
  · refine .inl ⟨by simpa using hv, ?_⟩
    rw [if_neg hv]

/-- The state after a decode that failed its length check (R131). -/
def unreadState (s : State) : State := { s with status := { s.status with fv := false } }

/-- The state after a decode that judged the checksum and then failed (R131). -/
def judgedState (s : State) : State :=
  { s with status := { s.status with fv := false }, chk := checkVerdict s .rx }

/-- The state after a good decode (R131). -/
def goodState (s : State) : State :=
  { s with status := { s.status with fv := true }, chk := checkVerdict s .rx, dec := decodedFields s }

/-- Everything a decode can do (R131). -/
theorem decodeFrame_cases (s : State) :
    (s.rxlen.toNat ≠ 26 ∧ decodeFrame s = (unreadState s, some .len)) ∨
    (s.rxlen.toNat = 26 ∧ s.rxByte 0 ≠ 0xAA ∧ decodeFrame s = (judgedState s, some .sync)) ∨
    (s.rxlen.toNat = 26 ∧ s.rxByte 0 = 0xAA ∧ s.regs.chkEn = true ∧ (checkVerdict s .rx).ok = false ∧
      decodeFrame s = (judgedState s, some .chk)) ∨
    (s.rxlen.toNat = 26 ∧ s.rxByte 0 = 0xAA ∧ ¬(s.regs.chkEn = true ∧ (checkVerdict s .rx).ok = false) ∧
      decodeFrame s = (goodState s, none)) := by
  unfold decodeFrame
  by_cases hl : s.rxlen.toNat = 26
  · by_cases hs : s.rxByte 0 = 0xAA
    · by_cases hc : s.regs.chkEn = true ∧ (checkVerdict s .rx).ok = false
      · refine .inr (.inr (.inl ⟨hl, hs, hc.1, hc.2, ?_⟩))
        simp only [Config.frameLen, Config.sync, hl, hs, ne_eq, not_true_eq_false, if_false, if_pos hc]
        rfl
      · refine .inr (.inr (.inr ⟨hl, hs, hc, ?_⟩))
        simp only [Config.frameLen, Config.sync, hl, hs, ne_eq, not_true_eq_false, if_false, if_neg hc]
        rfl
    · refine .inr (.inl ⟨hl, hs, ?_⟩)
      simp only [Config.frameLen, Config.sync, hl, hs, ne_eq, not_true_eq_false, not_false_eq_true, if_false, if_true]
      rfl
  · refine .inl ⟨hl, ?_⟩
    simp only [Config.frameLen, hl, ne_eq, not_false_eq_true, if_true]
    rfl

/-- Everything a single-shot command does with its response (R190). -/
theorem singleShotAnswered_cases (sub : SubAddr) (s : State) :
    (∃ t d, decodeFrame s = (t, some d) ∧ singleShotAnswered sub s = raiseError .frameError d sub.code t) ∨
    (∃ t, decodeFrame s = (t, none) ∧ sub.isWrite = true ∧ t.dec.ackOk = false ∧
      singleShotAnswered sub s = raiseError .protocolNack .nack sub.code t) ∨
    (∃ t, decodeFrame s = (t, none) ∧ ¬(sub.isWrite = true ∧ t.dec.ackOk = false) ∧
      singleShotAnswered sub s = completeOk t) := by
  unfold singleShotAnswered
  rcases h : decodeFrame s with ⟨t, _ | d⟩
  · by_cases ha : sub.isWrite = true ∧ t.dec.ackOk = false
    · exact .inr (.inl ⟨t, rfl, ha.1, ha.2, by simp only [if_pos ha]⟩)
    · exact .inr (.inr ⟨t, rfl, ha, by simp only [if_neg ha]⟩)
  · exact .inl ⟨t, d, rfl, rfl⟩

/-- The ramp with its next position computed (R171 part 1). -/
def aimed (s : State) : State :=
  { s with ramp := { s.ramp with cand := (nextPosition s.ramp).1, final := (nextPosition s.ramp).2 } }

/-- Everything a ramp step does before its exchange (R171 parts 1 to 4). -/
theorem rampStep_cases (s : State) :
    (inRange (commandedValue (nextPosition s.ramp).1 s.ramp.offset) = true ∧
      rampStep s = startExchange (buildNumeric 0x23
        (BitVec.ofInt 32 (commandedValue (nextPosition s.ramp).1 s.ramp.offset)) (aimed s))) ∨
    (inRange (commandedValue (nextPosition s.ramp).1 s.ramp.offset) = false ∧
      rampStep s = raiseError .argumentError .range 0x23 (aimed s)) := by
  by_cases h : inRange (commandedValue (nextPosition s.ramp).1 s.ramp.offset) = true
  · refine .inl ⟨h, ?_⟩
    simp only [rampStep, if_pos h]
    rfl
  · refine .inr ⟨by simpa using h, ?_⟩
    simp only [rampStep, if_neg h]
    rfl

/-- The ramp with its step recorded (R171 part 5). -/
def recordedStep (t : State) : State :=
  { t with rampCnt := t.rampCnt + 1, rampPos := t.ramp.cand, ramp := { t.ramp with pos := t.ramp.cand } }

/-- Everything a response does to a ramp (R171 parts 4 to 6). -/
theorem rampAnswered_cases (s : State) :
    (∃ t d, decodeFrame s = (t, some d) ∧ rampAnswered s = raiseError .communicationError d 0x23 t) ∨
    (∃ t, decodeFrame s = (t, none) ∧ t.dec.ackOk = false ∧ rampAnswered s = raiseError .protocolNack .nack 0x23 t) ∨
    (∃ t, decodeFrame s = (t, none) ∧ t.dec.ackOk = true ∧ t.ramp.delay = 0 ∧
      rampAnswered s = rampContinue (recordedStep t)) ∨
    (∃ t, decodeFrame s = (t, none) ∧ t.dec.ackOk = true ∧ t.ramp.delay ≠ 0 ∧
      rampAnswered s = { recordedStep t with scnt := t.ramp.delay, st := .settle }) := by
  unfold rampAnswered
  rcases h : decodeFrame s with ⟨t, _ | d⟩
  · by_cases ha : t.dec.ackOk = true
    · have ha' : ¬ t.dec.ackOk = false := by simp [ha]
      by_cases hd : t.ramp.delay = 0
      · exact .inr (.inr (.inl ⟨t, rfl, ha, hd, by simp only [if_neg ha', if_pos hd]; rfl⟩))
      · exact .inr (.inr (.inr ⟨t, rfl, ha, hd, by simp only [if_neg ha', if_neg hd]; rfl⟩))
    · have ha' : t.dec.ackOk = false := by simpa using ha
      exact .inr (.inl ⟨t, rfl, ha', by simp only [if_pos ha']; rfl⟩)
  · exact .inl ⟨t, d, rfl, rfl⟩

/-- Everything a settle cycle does (R174). -/
theorem settleCycle_cases (s : State) :
    (1 < s.scnt.toNat ∧ settleCycle s = { s with scnt := s.scnt - 1 }) ∨
    (s.scnt.toNat ≤ 1 ∧ s.ramp.final = true ∧ settleCycle s = completeOk { s with scnt := 0 }) ∨
    (s.scnt.toNat ≤ 1 ∧ s.ramp.final = false ∧ settleCycle s = rampStep { s with scnt := 0 }) := by
  unfold settleCycle rampContinue
  by_cases h : 1 < s.scnt.toNat
  · exact .inl ⟨h, by rw [if_pos h]⟩
  · by_cases hf : s.ramp.final = true
    · exact .inr (.inl ⟨by omega, hf, by simp only [if_neg h, hf, if_true]⟩)
    · have hf' : s.ramp.final = false := by simpa using hf
      exact .inr (.inr ⟨by omega, hf', by simp [if_neg h, hf']⟩)

/-- A byte taken by the link (R151). -/
def byteTaken (s : State) : State := { s with txIdx := s.txIdx + 1 }

/-- Everything a cycle of transmission does (R151, R155). -/
theorem txCycle_cases (s : State) :
    (s.pins.lnkErr = true ∧
      txCycle s = exchangeFail .link (if s.pins.txReady then byteTaken s else s)) ∨
    (s.pins.lnkErr = false ∧ s.pins.txReady = false ∧ txCycle s = s) ∨
    (s.pins.lnkErr = false ∧ s.pins.txReady = true ∧ (s.txIdx + 1).toNat ≠ 26 ∧ txCycle s = byteTaken s) ∨
    (s.pins.lnkErr = false ∧ s.pins.txReady = true ∧ (s.txIdx + 1).toNat = 26 ∧ s.rxlen.toNat ≠ 26 ∧
      txCycle s = { byteTaken s with st := .rx, tmr := 0 }) ∨
    (s.pins.lnkErr = false ∧ s.pins.txReady = true ∧ (s.txIdx + 1).toNat = 26 ∧ s.rxlen.toNat = 26 ∧
      txCycle s = exchangeOk (byteTaken s)) := by
  unfold txCycle
  by_cases he : s.pins.lnkErr = true
  · exact .inl ⟨he, by simp only [he, if_true]; rfl⟩
  · have he' : s.pins.lnkErr = false := by simpa using he
    by_cases hr : s.pins.txReady = true
    · by_cases hi : (s.txIdx + 1).toNat = 26
      · by_cases hx : s.rxlen.toNat = 26
        · exact .inr (.inr (.inr (.inr ⟨he', hr, hi, hx, by
            simp only [he', hr, Config.frameLen, hi, hx, if_true, and_self, Bool.false_eq_true, if_false]; rfl⟩)))
        · exact .inr (.inr (.inr (.inl ⟨he', hr, hi, hx, by
            simp only [he', hr, Config.frameLen, hi, hx, if_true, and_self, Bool.false_eq_true, if_false]; rfl⟩)))
      · exact .inr (.inr (.inl ⟨he', hr, hi, by
          simp only [he', hr, Config.frameLen, hi, if_true, and_false, Bool.false_eq_true, if_false]; rfl⟩))
    · have hr' : s.pins.txReady = false := by simpa using hr
      exact .inr (.inl ⟨he', hr', by simp [he', hr']⟩)

/-- Everything a cycle of waiting does (R155). -/
theorem waitCycle_cases (s : State) :
    (s.regs.rxTimeout ≠ 0 ∧ s.regs.rxTimeout.toNat ≤ s.tmr.toNat + 1 ∧ waitCycle s = exchangeFail .timeout s) ∨
    (¬(s.regs.rxTimeout ≠ 0 ∧ s.regs.rxTimeout.toNat ≤ s.tmr.toNat + 1) ∧
      waitCycle s = { s with tmr := s.tmr + 1 }) := by
  unfold waitCycle
  by_cases h : s.regs.rxTimeout ≠ 0 ∧ s.regs.rxTimeout.toNat ≤ s.tmr.toNat + 1
  · exact .inl ⟨h.1, h.2, by rw [if_pos h]⟩
  · exact .inr ⟨h, by rw [if_neg h]⟩

/-- Which procedure the end of an exchange runs, by the running command (R158). -/
theorem exchangeOk_cases (s : State) :
    (∃ a, singleShotSub s.opr = some a ∧ exchangeOk s = singleShotAnswered a { s with rxw := false }) ∨
    (singleShotSub s.opr = none ∧ s.opr = 10 ∧ exchangeOk s = rampAnswered { s with rxw := false }) ∨
    (singleShotSub s.opr = none ∧ s.opr ≠ 10 ∧ exchangeOk s = completeOk { s with rxw := false }) := by
  unfold exchangeOk
  rcases h : singleShotSub s.opr with _ | a
  · by_cases ha : s.opr = 10
    · exact .inr (.inl ⟨rfl, ha, by simp only [h, if_pos ha]⟩)
    · exact .inr (.inr ⟨rfl, ha, by simp only [h, if_neg ha]⟩)
  · exact .inl ⟨a, rfl, by simp only [h]⟩

/-- A meaning always answers a next state: the spec names no stop (R212, R220). -/
theorem exec_next (i : Instr) (s : State) : ∃ t, exec i s = .next t := by
  cases i with
  | encRaw sub =>
    simp only [exec, execEncRaw]
    split
    · exact ⟨_, rfl⟩
    · split <;> exact ⟨_, rfl⟩
  | encNum sub =>
    simp only [exec, execEncNum]
    split <;> exact ⟨_, rfl⟩
  | decode =>
    simp only [exec, execDecode]
    split <;> exact ⟨_, rfl⟩
  | unpack b o w =>
    simp only [exec, execUnpack]
    split <;> exact ⟨_, rfl⟩
  | ramp =>
    simp only [exec, execRamp]
    split
    · exact ⟨_, rfl⟩
    · split <;> exact ⟨_, rfl⟩
  | xfer => exact ⟨_, rfl⟩
  | remote => exact ⟨_, rfl⟩
  | output => exact ⟨_, rfl⟩
  | setMaxv => exact ⟨_, rfl⟩
  | setImax => exact ⟨_, rfl⟩
  | status => exact ⟨_, rfl⟩
  | validate b => exact ⟨_, rfl⟩
  | frameRemoteControl d => exact ⟨_, rfl⟩
  | frameOutputEnable d => exact ⟨_, rfl⟩
  | frameMaxVoltage d => exact ⟨_, rfl⟩
  | frameVoltageSetpoint d => exact ⟨_, rfl⟩
  | frameCurrentLimit d => exact ⟨_, rfl⟩
  | frameStatusQuery d => exact ⟨_, rfl⟩
  | frameResponse d b => exact ⟨_, rfl⟩

/-- The link takes exactly TXBUF[TXIDX], in a TX cycle without reset in which it is ready (R151, R240). -/
theorem sentByte_eq_some (s : State) (b : Byte) :
    s.sentByte = some b ↔
      s.pins.rst = false ∧ s.st = .tx ∧ s.pins.txReady = true ∧ s.txByte s.txIdx.toNat = b := by
  unfold State.sentByte State.txData State.txValid
  cases s.pins.txReady <;> cases s.pins.rst <;> by_cases h : s.st = .tx <;> simp [h]

/-- The link in a cycle of reset: no byte is offered and none is taken (R240). -/
theorem link_outputs_of_rst (s : State) (h : s.pins.rst = true) :
    s.txValid = false ∧ s.sentByte = none := by
  simp [State.sentByte, State.txData, State.txValid, h]

end Sys2Proof.Machine
end

