-- ==== Sys2Proof/Laws/PerInstr.lean ====
section
/-! SUPPORT. The families of lemmas with one lemma per constructor of `Instr`. -/

namespace Sys2Proof.Laws.RowBits

/-- The mask of the instruction's row in spec/opcode_table.json, byte by byte, bits 7:0 first. -/
def mask (i : Instr) : List Byte :=
  match i.place with
  | .command => [0xEF, 0x00, 0x00, 0xFF]
  | .transmit => [0xFF, 0x00, 0xFF]
  | .receive => [0xFF, 0x00, 0x00]

/-- The match of the instruction's row, byte by byte. -/
def row : Instr → List Byte
  | .encRaw _ => [0x01, 0x00, 0x00, 0x00]
  | .encNum _ => [0x02, 0x00, 0x00, 0x00]
  | .decode => [0x03, 0x00, 0x00, 0x00]
  | .xfer => [0x04, 0x00, 0x00, 0x00]
  | .remote => [0x05, 0x00, 0x00, 0x00]
  | .output => [0x06, 0x00, 0x00, 0x00]
  | .setMaxv => [0x07, 0x00, 0x00, 0x00]
  | .setImax => [0x08, 0x00, 0x00, 0x00]
  | .status => [0x09, 0x00, 0x00, 0x00]
  | .ramp => [0x0A, 0x00, 0x00, 0x00]
  | .validate _ => [0x0B, 0x00, 0x00, 0x00]
  | .unpack _ _ _ => [0x0C, 0x00, 0x00, 0x00]
  | .frameRemoteControl _ => [0xAA, 0x00, 0x20]
  | .frameOutputEnable _ => [0xAA, 0x00, 0x21]
  | .frameMaxVoltage _ => [0xAA, 0x00, 0x22]
  | .frameVoltageSetpoint _ => [0xAA, 0x00, 0x23]
  | .frameCurrentLimit _ => [0xAA, 0x00, 0x24]
  | .frameStatusQuery _ => [0xAA, 0x00, 0x26]
  | .frameResponse _ _ => [0xAA, 0x00, 0x00]

/-- R86, R88: the encoding of an instruction lies in its row of the opcode table. -/
def Statement (i : Instr) : Prop :=
  (encode i).length = (mask i).length ∧ List.zipWith (fun b m => b &&& m) (encode i) (mask i) = row i

theorem encRaw (sub : Byte) : Statement (.encRaw sub) := by unfold Statement; revert sub; decide
theorem encNum (sub : Byte) : Statement (.encNum sub) := by unfold Statement; revert sub; decide
theorem decode : Statement .decode := by unfold Statement; decide
theorem xfer : Statement .xfer := by unfold Statement; decide
theorem remote : Statement .remote := by unfold Statement; decide
theorem output : Statement .output := by unfold Statement; decide
theorem setMaxv : Statement .setMaxv := by unfold Statement; decide
theorem setImax : Statement .setImax := by unfold Statement; decide
theorem status : Statement .status := by unfold Statement; decide
theorem ramp : Statement .ramp := by unfold Statement; decide
theorem validate (buf : BufSel) : Statement (.validate buf) := by unfold Statement; cases buf <;> decide

theorem unpack (buf : BufSel) (off wid : Nat) : Statement (.unpack buf off wid) := by
  have h : ∀ (w : BitVec 3) (o : BitVec 5),
      List.zipWith (fun b m => b &&& m) (bytesOfWord (commandWord 12 buf.bit 0 o w)) [0xEF, 0x00, 0x00, 0xFF]
        = [0x0C, 0x00, 0x00, 0x00] := by
    cases buf <;> decide
  exact ⟨rfl, h _ _⟩

theorem frameRemoteControl (dev : Byte) : Statement (.frameRemoteControl dev) :=
  ⟨rfl, by simp [encode, mask, row, Instr.place, Config.sync, SubAddr.code]⟩

theorem frameOutputEnable (dev : Byte) : Statement (.frameOutputEnable dev) :=
  ⟨rfl, by simp [encode, mask, row, Instr.place, Config.sync, SubAddr.code]⟩

theorem frameMaxVoltage (dev : Byte) : Statement (.frameMaxVoltage dev) :=
  ⟨rfl, by simp [encode, mask, row, Instr.place, Config.sync, SubAddr.code]⟩

theorem frameVoltageSetpoint (dev : Byte) : Statement (.frameVoltageSetpoint dev) :=
  ⟨rfl, by simp [encode, mask, row, Instr.place, Config.sync, SubAddr.code]⟩

theorem frameCurrentLimit (dev : Byte) : Statement (.frameCurrentLimit dev) :=
  ⟨rfl, by simp [encode, mask, row, Instr.place, Config.sync, SubAddr.code]⟩

theorem frameStatusQuery (dev : Byte) : Statement (.frameStatusQuery dev) :=
  ⟨rfl, by simp [encode, mask, row, Instr.place, Config.sync, SubAddr.code]⟩

theorem frameResponse (dev sub : Byte) : Statement (.frameResponse dev sub) :=
  ⟨rfl, by simp [encode, mask, row, Instr.place, Config.sync]⟩

end Sys2Proof.Laws.RowBits
end

