-- ==== Sys2Proof/Tests/Slice0.lean ====
section
/-! SUPPORT. Tests: ill-formed terms refused, one written-out encoding for every constructor, small tests of each instruction with
the results of 95_test_vectors.md, and for every statement with hypotheses a state and operands that meet them all. -/

open Sys2Proof Sys2Proof.Machine

set_option maxRecDepth 16384

namespace Sys2Proof.Tests

/-! ### Helpers -/

/-- The state a meaning leaves. -/
def after (i : Instr) (s : State) : State :=
  match exec i s with
  | .next t => t
  | .fault _ => s
  | .refused _ => s

/-- The state a step leaves. -/
def stepped (s : State) : State :=
  match step s with
  | .next t => t
  | .fault _ => s
  | .refused _ => s

/-- Bytes in TXBUF. -/
def withTx (bs : List Byte) (s : State) : State := { s with mem := s.mem.writeBytes 0x80 bs }

/-- A complete response in RXBUF. -/
def withRx (bs : List Byte) (s : State) : State := { s with mem := s.mem.writeBytes 0xA0 bs, rxlen := 26 }

/-- Bytes in PAYBUF. -/
def withPay (bs : List Byte) (s : State) : State := { s with mem := s.mem.writeBytes 0xC0 bs }

/-- The next cycle's inputs. -/
def withPins (p : Pins) (s : State) : State := { s with script := [p] }

/-- `n` zero bytes. -/
def zeros (n : Nat) : List Byte := List.replicate n 0

/-- A frame `AA 00 b2 b3 00... c` (95_test_vectors.md, Conventions). -/
def shortFrame (b2 b3 c : Byte) : List Byte := [0xAA, 0x00, b2, b3] ++ zeros 21 ++ [c]

/-- V2's response: VSET = 10000. -/
def frameV2 : List Byte := [0xAA, 0x00, 0x26] ++ zeros 13 ++ [0x10, 0x27] ++ zeros 7 ++ [0x07]

/-- A host write of a register by its byte address. -/
def hostWrite (addr : BitVec 8) (v : Word) : Pins := hostWritePins addr v

/-- A cycle in which nobody does anything. -/
def quiet : Pins := linkPins false none

/-- A cycle in which the link takes a byte. -/
def ready : Pins := linkPins true none

/-- A cycle in which the link delivers a byte. -/
def byteIn (b : Byte) : Pins := linkPins false (some b)

/-- A cycle of link fault. -/
def linkFault : Pins := { linkPins false (some 0x11) with lnkErr := true }

/-- Reset with one operand register set. -/
def withArg (v : Word) : State := { State.reset with regs := { State.reset.regs with arg := v } }

/-- A state whose first exchange of `i` has started. -/
def sending (i : Instr) (s : State) : State := after i s

/-- The same exchange, all 26 bytes sent, `n` bytes of a response received. -/
def waitingFor (i : Instr) (s : State) (resp : List Byte) : State :=
  let t := sending i s
  { t with st := .rx, txIdx := 26, mem := t.mem.writeBytes 0xA0 resp, rxlen := BitVec.ofNat 5 resp.length }

/-- A ramp's operands: from 0 to a target, by a step, with an offset and a settle delay. -/
def rampFrom0 (target step offset delay : Word) : State :=
  { State.reset with
    regs := { State.reset.regs with rampTo := target, rampStep := step, rampOffset := offset, settle := delay } }

/-! ### Well-formedness and encodings -/

/-- R91: OFF and WID have 5 and 3 bits. -/
theorem test_wellFormed_refuses_wide_offset : (Instr.unpack .rx 32 1).wellFormed = false := by decide
theorem test_wellFormed_refuses_wide_width : (Instr.unpack .rx 0 8).wellFormed = false := by decide
theorem test_wellFormed_largest_fields : (Instr.unpack .tx 31 7).wellFormed = true := by decide

/-- R91: an operand that does not fit its field is refused when the statement is assembled. -/
theorem test_assemble_refuses :
    (Stmt.encRaw 0x100).assemble = none ∧ (Stmt.encNum 0x100).assemble = none ∧
    (Stmt.unpack .rx 32 1).assemble = none ∧ (Stmt.unpack .rx 0 8).assemble = none ∧
    (Stmt.write .arg 0x100000000).assemble = none := by decide

/-- R92: `remote.on` is a write of ARG = 1, the REMOTE command and a wait. -/
theorem test_assemble_remoteOn :
    Stmt.remoteOn.assemble = some [.write 0x14 1, .write 0x04 5, .pollDone] := by decide

/-- The words of 30_encoding.md and 95_test_vectors.md, bits 7:0 first: ENC_RAW 0x00002301, ENC_NUM 0x00002502. -/
theorem test_decode_encRaw : decode .command [0x01, 0x23, 0x00, 0x00] = .ok (.encRaw 0x23) := by decide
theorem test_decode_encNum : decode .command [0x02, 0x25, 0x00, 0x00] = .ok (.encNum 0x25) := by decide
theorem test_decode_decode : decode .command [0x03, 0x00, 0x00, 0x00] = .ok .decode := by decide
theorem test_decode_xfer : decode .command [0x04, 0x00, 0x00, 0x00] = .ok .xfer := by decide
theorem test_decode_remote : decode .command [0x05, 0x00, 0x00, 0x00] = .ok .remote := by decide
theorem test_decode_output : decode .command [0x06, 0x00, 0x00, 0x00] = .ok .output := by decide
theorem test_decode_setMaxv : decode .command [0x07, 0x00, 0x00, 0x00] = .ok .setMaxv := by decide
theorem test_decode_setImax : decode .command [0x08, 0x00, 0x00, 0x00] = .ok .setImax := by decide
theorem test_decode_status : decode .command [0x09, 0x00, 0x00, 0x00] = .ok .status := by decide
theorem test_decode_ramp : decode .command [0x0A, 0x00, 0x00, 0x00] = .ok .ramp := by decide
theorem test_decode_validate : decode .command [0x1B, 0x00, 0x00, 0x00] = .ok (.validate .tx) := by decide
theorem test_decode_unpack : decode .command [0x1C, 0x00, 0x83, 0x00] = .ok (.unpack .tx 3 4) := by decide
theorem test_decode_frameRemoteControl : decode .transmit [0xAA, 0x01, 0x20] = .ok (.frameRemoteControl 1) := by decide
theorem test_decode_frameOutputEnable : decode .transmit [0xAA, 0x02, 0x21] = .ok (.frameOutputEnable 2) := by decide
theorem test_decode_frameMaxVoltage : decode .transmit [0xAA, 0x03, 0x22] = .ok (.frameMaxVoltage 3) := by decide
theorem test_decode_frameVoltageSetpoint : decode .transmit [0xAA, 0x04, 0x23] = .ok (.frameVoltageSetpoint 4) := by decide
theorem test_decode_frameCurrentLimit : decode .transmit [0xAA, 0x05, 0x24] = .ok (.frameCurrentLimit 5) := by decide
theorem test_decode_frameStatusQuery : decode .transmit [0xAA, 0xFF, 0x26] = .ok (.frameStatusQuery 0xFF) := by decide
theorem test_decode_frameResponse : decode .receive [0xAA, 0x07, 0x23] = .ok (.frameResponse 7 0x23) := by decide

/-- R84: a field its operation ignores may hold anything; R87: BAD_OP is checked before RSVD_BITS. -/
theorem test_decode_ignored_fields : decode .command [0x13, 0xFF, 0xFF, 0x00] = .ok .decode := by decide
theorem test_decode_bad_op :
    decode .command [0xED, 0x00, 0x00, 0xFF] = .error .badOp ∧ decode .command [0x00, 0x00, 0x00, 0x00] = .error .badOp := by
  decide
theorem test_decode_reserved :
    decode .command [0x24, 0x00, 0x00, 0x00] = .error .rsvdBits ∧ decode .command [0x04, 0x00, 0x00, 0x01] = .error .rsvdBits := by
  decide
theorem test_decode_frames_refused :
    decode .transmit [0xAA, 0x00, 0x25] = .error .notInSubset ∧ decode .transmit [0x55, 0x00, 0x26] = .error .notSync ∧
    decode .receive [0x55, 0x00, 0x26] = .error .notSync ∧ decode .command [0x04] = .error .badLength := by decide

/-- The rows of spec/opcode_table.json, as it numbers their bits. -/
theorem test_table_words :
    decodeTableWord 32 0x0083001C = some (.unpack .tx 3 4) ∧ decodeTableWord 24 0x2405AA = some (.frameCurrentLimit 5) ∧
    decodeTableWord 24 0x0000AA = some (.frameResponse 0 0) ∧ decodeTableWord 32 0x0000000D = none := by decide

/-! ### One or two small tests of each instruction (95_test_vectors.md) -/

/-- V1 and V5's row `empty payload`. -/
theorem test_encRaw_v1 :
    (after (.encRaw 0x23) { State.reset with paylen := 1 }).txFrame = shortFrame 0x23 0x00 0xCD := by decide
/-- V6: BAD_SUB is checked before PAYLEN. -/
theorem test_encRaw_v6 : (after (.encRaw 0x25) { State.reset with paylen := 23 }).errInfoWord = 0x00012509 := by decide
/-- V4, ARG = 0x10000. -/
theorem test_encNum_v4 :
    (after (.encNum 0x24) (withArg 0x10000)).txFrame = [0xAA, 0x00, 0x24, 0x00, 0x00, 0x01] ++ zeros 19 ++ [0xCF] := by decide
/-- V6. -/
theorem test_encNum_v6 : (after (.encNum 0xFF) State.reset).errInfoWord = 0x0002FF09 := by decide
/-- V9: two errors that cancel, and no sync. -/
theorem test_validate_v9 :
    (after (.validate .rx) (withRx ([0xAA, 0x00, 0x23, 0x00, 0x01, 0x00, 0x00, 0xFF] ++ zeros 17 ++ [0xCD]) State.reset)).decFlagsWord
      = 0x0001CDCD := by decide
/-- V2. -/
theorem test_decode_v2 :
    let t := after .decode (withRx frameV2 State.reset)
    t.dec.vset = 10000 ∧ t.decHdrWord = 0x00002600 ∧ t.decFlagsWord = 0x00010707 ∧ t.statusWord = 6 := by decide
/-- V13, RXLEN = 25. -/
theorem test_decode_v13 :
    let t := after .decode { withRx frameV2 State.reset with rxlen := 25 }
    t.statusWord = 0x22 ∧ t.errInfoWord = 0x00030001 := by decide
/-- V11: current of V18's response, and a field that runs past byte 25. -/
theorem test_unpack_v11 :
    (after (.unpack .rx 3 2) (withRx ([0xAA, 0x00, 0x26, 0xD2, 0x04] ++ zeros 21) State.reset)).result = 1234 := by decide
theorem test_unpack_v11_outside : (after (.unpack .rx 25 2) State.reset).errInfoWord = 0x000C000E := by decide
/-- V12: the acceptance edge. -/
theorem test_xfer_v12 :
    let t := after .xfer (withRx frameV2 State.reset)
    t.statusWord = 0x101 ∧ t.rxlen = 0 ∧ t.rxFrame = zeros 26 := by decide
/-- V14. -/
theorem test_remote_v14 : (after .remote (withArg 1)).txFrame = shortFrame 0x20 0x01 0xCB := by decide
theorem test_remote_v14_refused :
    let t := after .remote (withArg 0x100)
    t.statusWord = 0x62 ∧ t.errInfoWord = 0x0005200B := by decide
/-- V15. -/
theorem test_output_v15 : (after .output (withArg 1)).txFrame = shortFrame 0x21 0x01 0xCC := by decide
/-- V16. -/
theorem test_setMaxv_v16 :
    (after .setMaxv (withArg 30000)).txFrame = [0xAA, 0x00, 0x22, 0x30, 0x75] ++ zeros 20 ++ [0x71] := by decide
/-- V17. -/
theorem test_setImax_v17 :
    (after .setImax (withArg 1500)).txFrame = [0xAA, 0x00, 0x24, 0xDC, 0x05] ++ zeros 20 ++ [0xAF] := by decide
/-- V18. -/
theorem test_status_v18 : (after .status State.reset).txFrame = [0xAA, 0x00, 0x26] ++ zeros 22 ++ [0xD0] := by decide
/-- V20, step 1; V24, a zero step. -/
theorem test_ramp_v20 :
    (after .ramp (rampFrom0 2000 500 0 0)).txFrame = [0xAA, 0x00, 0x23, 0xF4, 0x01] ++ zeros 20 ++ [0xC2] := by decide
theorem test_ramp_v24 : (after .ramp (rampFrom0 1000 0 0 0)).errInfoWord = 0x000A230C := by decide

/-- V12: the last byte of a frame is taken and the wait starts (R151, R155), for each of the six frames. -/
theorem test_frames_last_byte :
    ∀ a ∈ SubAddr.all,
      (after (Instr.ofFrame a 0)
        (withPins ready { withTx (frameBytes 0 a.code []) (sending .xfer State.reset) with txIdx := 25 })).statusWord = 0x201 := by
  decide
/-- V19: a link fault during the transmission: COMMUNICATION_ERROR(LINK), ERR_SUB the frame's byte 2. -/
theorem test_frames_link_fault :
    ∀ a ∈ SubAddr.all,
      (after (Instr.ofFrame a 0)
        (withPins linkFault (withTx (frameBytes 0 a.code []) (sending .xfer State.reset)))).errInfoWord
        = 0x00040005 ||| (a.code.setWidth 32 <<< 8) := by
  decide
/-- V16: the nack response; V26: step 1 of a ramp is acknowledged and step 2's frame is built. -/
theorem test_frameResponse_v16 :
    let t := after (.frameResponse 0 0x22) { waitingFor .setMaxv (withArg 30000) (shortFrame 0x22 0x90 0x5C) with rxlen := 26 }
    t.statusWord = 0x46 ∧ t.errInfoWord = 0x00072206 ∧ t.decFlagsWord = 0x00015C5C := by decide
theorem test_frameResponse_v26 :
    let t := after (.frameResponse 0 0x23)
      { waitingFor .ramp (rampFrom0 2000 500 0 0) (shortFrame 0x23 0x80 0x4D) with rxlen := 26 }
    t.rampCnt = 1 ∧ t.rampPos = 500 ∧ t.txFrame = [0xAA, 0x00, 0x23, 0xE8, 0x03] ++ zeros 20 ++ [0xB8] := by decide

/-- R63: a buffer word, written by the host to an idle block. -/
theorem test_buffer_word :
    (stepped (withPins (hostWrite 0x98 0x11223344) State.reset)).txFrame = zeros 24 ++ [0x44, 0x33] := by decide
/-- R66: a write while busy is ignored and sets BUSY_WR. -/
theorem test_busy_write :
    let t := stepped (withPins (hostWrite 0x14 7) (sending .xfer State.reset))
    t.regs.arg = 0 ∧ t.statusWord = 0x10101 := by decide
/-- R87: an illegal word completes with ILLEGAL_COMMAND(BAD_OP). -/
theorem test_illegal_word : (stepped (withPins (hostWrite 0x04 0x0D) State.reset)).statusWord = 0x52 := by decide
/-- R174, V29's form: a settle count of 1 ends after a final step. -/
theorem test_settle_ends :
    let s := after (.frameResponse 0 0x23)
      { waitingFor .ramp (rampFrom0 500 500 0 1) (shortFrame 0x23 0x80 0x4D) with rxlen := 26 }
    s.statusWord = 0x305 ∧ (stepped (withPins quiet s)).statusWord = 0x6 := by decide
/-- A table row placed by `withFetchWord` is what the step runs: DECODE with RXLEN = 0 is FRAME_ERROR(LEN). -/
theorem test_fetch_command : (stepped (State.reset.withFetchWord 32 0x00000003)).errInfoWord = 0x00030001 := by decide
/-- The same for a command frame (its first byte is taken) and for a response (its checksum is 0, CHK_EN is 0). -/
theorem test_fetch_frames :
    (stepped (State.reset.withFetchWord 24 0x2600AA)).txIdx = 1 ∧
    (stepped (State.reset.withFetchWord 24 0x0000AA)).statusWord = 0x6 := by decide

/-! ### The invariant, checked -/

/-- A check that implies the invariant. -/
def invCheck (s : State) : Bool :=
  s.mem.wf &&
  (s.rxw == (s.st == .tx || s.st == .rx)) &&
  (s.st != .tx || (decide (s.txIdx.toNat < 26) && decide (s.rxlen.toNat ≤ 26))) &&
  (s.st != .rx || (decide (s.txIdx.toNat = 26) && decide (s.rxlen.toNat < 26))) &&
  (s.st != .rx || s.regs.rxTimeout == 0 || decide (s.tmr.toNat < s.regs.rxTimeout.toNat)) &&
  (s.st == .idle || s.st == .settle || (decide (4 ≤ s.opr.toNat) && decide (s.opr.toNat ≤ 10))) &&
  (s.st != .settle || (s.opr == 10 && s.scnt != 0 && decide (s.scnt.toNat ≤ s.ramp.delay.toNat))) &&
  (s.st == .settle || s.scnt == 0) &&
  (s.st == .idle || (!s.status.done && s.status.err == .ok)) &&
  s.errInfo.detail.belongsTo s.status.err &&
  (s.status.err != .ok || s.errInfo == { detail := .none, sub := 0, op := 0 }) &&
  s.dec.ackOk == ackVerdict s.dec.ack && s.dec.outOn == outputOn s.dec.state &&
  (!s.chk.ok || s.chk.sum == s.chk.rcv) &&
  (s.st == .idle ||
    match frameSub s.opr with
    | none => true
    | some a => decide (s.paylen.toNat ≤ 4) &&
        s.txFrame == frameBytes s.regs.devAddr a.code (s.payBytes s.paylen.toNat)) &&
  (s.st == .idle || s.opr != 10 ||
    (s.ramp.target == s.regs.rampTo && s.ramp.step == s.regs.rampStep && s.ramp.offset == s.regs.rampOffset &&
      s.ramp.delay == s.regs.settle && s.ramp.up == decide (s.regs.rampFrom.toNat < s.regs.rampTo.toNat) &&
      s.regs.rampFrom != s.regs.rampTo && s.regs.rampStep != 0 && s.rampPos == s.ramp.pos)) &&
  (s.st == .idle || s.st == .settle || s.opr != 10 ||
    (decide (s.rampCnt.toNat * s.regs.rampStep.toNat < rampDistance s.regs) &&
      (s.ramp.pos.toNat : Int) == rampAt s.regs (s.rampCnt.toNat * s.regs.rampStep.toNat) &&
      (s.ramp.cand.toNat : Int) ==
        rampAt s.regs (min ((s.rampCnt.toNat + 1) * s.regs.rampStep.toNat) (rampDistance s.regs)) &&
      s.ramp.final == decide (rampDistance s.regs ≤ (s.rampCnt.toNat + 1) * s.regs.rampStep.toNat))) &&
  (s.st != .settle || s.opr != 10 ||
    (decide (1 ≤ s.rampCnt.toNat) &&
      decide ((s.rampCnt.toNat - 1) * s.regs.rampStep.toNat < rampDistance s.regs) && s.ramp.cand == s.ramp.pos &&
      (s.ramp.pos.toNat : Int) ==
        rampAt s.regs (min (s.rampCnt.toNat * s.regs.rampStep.toNat) (rampDistance s.regs)) &&
      s.ramp.final == decide (rampDistance s.regs ≤ s.rampCnt.toNat * s.regs.rampStep.toNat)))

theorem inv_of_check (s : State) (h : invCheck s = true) : s.Inv := by
  simp only [invCheck, Bool.and_eq_true, Bool.or_eq_true, bne_iff_ne, beq_iff_eq, decide_eq_true_eq,
    Bool.not_eq_true'] at h
  obtain ⟨⟨⟨⟨⟨⟨⟨⟨⟨⟨⟨⟨⟨⟨⟨⟨⟨h1, h2⟩, h3⟩, h4⟩, h5⟩, h6⟩, h7⟩, h8⟩, h9⟩, h10⟩, h11⟩, h12⟩, h13⟩, h14⟩, h15⟩, h16⟩, h17⟩, h18⟩ := h
  refine ⟨h1, ⟨?_, ?_, ?_, ?_, ?_, ?_, ?_⟩, ⟨?_, ?_, ?_, ?_, ?_, ?_⟩, ?_, ⟨?_, ?_, ?_, ?_⟩⟩
  · rw [h2]; simp [State.exchanging]
  · intro h; simpa [h] using h3
  · intro h; simpa [h] using h4
  · intro h h'
    have := h5
    simp only [h, ne_eq, not_true_eq_false, false_or] at this
    exact this.resolve_left h'
  · rintro (h | h) <;> simpa [h] using h6
  · intro h; simpa [h, and_assoc] using h7
  · intro h; simpa [h] using h8
  · intro h; simpa [h] using h9
  · exact h10
  · intro h; simpa [h] using h11
  · exact h12
  · exact h13
  · intro h; simpa [h] using h14
  · intro h a ha
    simpa [h, ha] using h15
  · rintro ⟨h, h'⟩
    have := h16
    simp only [h, h', ne_eq, not_true_eq_false, false_or] at this
    exact ⟨this.1.1.1.1.1.1.1, this.1.1.1.1.1.1.2, this.1.1.1.1.1.2, this.1.1.1.1.2, this.1.1.1.2, this.1.1.2, this.1.2⟩
  · rintro ⟨h, h'⟩
    have := h16
    simp only [h, h', ne_eq, not_true_eq_false, false_or] at this
    exact this.2
  · rintro ⟨h, h'⟩ hx
    have hs : s.st ≠ .settle := by rcases hx with hx | hx <;> simp [hx]
    have := h17
    simp only [h, h', hs, ne_eq, not_true_eq_false, false_or] at this
    exact ⟨this.1.1.1, this.1.1.2, this.1.2, this.2⟩
  · rintro ⟨h, h'⟩ hs
    have := h18
    simp only [h', hs, ne_eq, not_true_eq_false, false_or] at this
    exact ⟨this.1.1.1.1, this.1.1.1.2, this.1.1.2, this.1.2, this.2⟩

/-! ### States that meet the hypotheses of the statements -/

/-- A TX cycle's state: a STATUS command has just been accepted. -/
def txState (p : Pins) : State := withPins p (sending .status State.reset)

/-- An RX cycle's state: the STATUS command's frame is sent and 25 bytes of a response are here. -/
def rxState (op : Instr) (s : State) (b0 : Byte) (p : Pins) : State := withPins p (waitingFor op s (b0 :: zeros 24))

/-- An XFER that waits, with a timeout, before any byte arrived. -/
def silentState (timeout : Word) (ps : List Pins) : State :=
  { waitingFor .xfer { State.reset with regs := { State.reset.regs with rxTimeout := timeout } } [] with script := ps }

/-- A ramp that settles. -/
def settleState (target : Word) (n : Word) : State :=
  withPins quiet { after (.frameResponse 0 0x23)
    { waitingFor .ramp (rampFrom0 target 500 0 2) (shortFrame 0x23 0x80 0x4D) with rxlen := 26 } with scnt := n }

theorem witness_DecodeOfEncode : (Instr.unpack .tx 31 7).wellFormed = true := by decide

theorem witness_EncodeOfDecode :
    decodeCommand 0x00FFFF11 = .ok (.encRaw 0xFF) ∧ decodeCommand 0x00FFFF12 = .ok (.encNum 0xFF) ∧
    decodeCommand 0x00FFFF1B = .ok (.validate .tx) ∧ decodeCommand 0x00FFFF1C = .ok (.unpack .tx 31 7) ∧
    decodeCommand 0x00FFFF1A = .ok .ramp := by decide

theorem witness_StepRunsTheCommandWord :
    let s := withPins (hostWrite 0x07 0x0000260B) State.reset
    s.pins.rst = false ∧ s.st = .idle ∧ s.pins.busWr = true ∧ s.pins.busAddr.toNat / 4 = 1 ∧
    decode .command (bytesOfWord s.pins.busWdata) = .ok (.validate .rx) := by decide

theorem witness_StepRunsTheCommandFrame :
    ((txState ready).pins.rst = false ∧ (txState ready).st = .tx ∧
      decode .transmit (txState ready).txFrame = .ok (.frameStatusQuery 0)) ∧
    (withPins ready (sending .xfer State.reset)).pins.rst = false ∧ (withPins ready (sending .xfer State.reset)).st = .tx ∧
    decode .transmit (withPins ready (sending .xfer State.reset)).txFrame = .error .notSync := by decide

theorem witness_StepRunsTheResponse :
    let s := rxState .status State.reset 0xAA (byteIn 0xAA)
    let u := busyWrite s.pins (receive (statusWrite s.pins s))
    s.pins.rst = false ∧ s.st = .rx ∧ s.pins.lnkErr = false ∧ u.rxlen = 26 ∧
    decode .receive u.rxFrame = .ok (.frameResponse 0 0) := by decide

theorem witness_IllegalWord_badOp :
    let s := withPins (hostWrite 0x04 0x0D) State.reset
    s.Inv ∧ s.pins.rst = false ∧ s.st = .idle ∧ s.pins.busWr = true ∧ s.pins.busAddr.toNat / 4 = 1 ∧
    ∀ i, decode .command (bytesOfWord s.pins.busWdata) ≠ .ok i := by
  refine ⟨inv_of_check _ (by decide), by decide, by decide, by decide, by decide, fun i h => ?_⟩
  have : decode .command (bytesOfWord (withPins (hostWrite 0x04 0x0D) State.reset).pins.busWdata) = .error .badOp := by decide
  rw [this] at h
  cases h

theorem witness_IllegalWord_reserved :
    let s := withPins (hostWrite 0x04 0x01000001) State.reset
    s.Inv ∧ s.pins.rst = false ∧ s.st = .idle ∧ s.pins.busWr = true ∧ s.pins.busAddr.toNat / 4 = 1 ∧
    ∀ i, decode .command (bytesOfWord s.pins.busWdata) ≠ .ok i := by
  refine ⟨inv_of_check _ (by decide), by decide, by decide, by decide, by decide, fun i h => ?_⟩
  have : decode .command (bytesOfWord (withPins (hostWrite 0x04 0x01000001) State.reset).pins.busWdata) = .error .rsvdBits := by
    decide
  rw [this] at h
  cases h

theorem witness_ChecksumIsTheSum : (zeros 25).length = 25 := by decide

theorem witness_PackerIsMinimal : (3 : Nat) < 4 := by decide

theorem witness_BuildFrame : (zeros 22).length ≤ 22 := by decide

theorem witness_BuiltFrameValidates :
    (∃ t u, exec (.encRaw 0x26) State.reset = .next t ∧ t.status.err = .ok ∧ exec (.validate .tx) t = .next u) ∧
    ∃ t u, exec (.encNum 0x20) State.reset = .next t ∧ t.status.err = .ok ∧ exec (.validate .tx) t = .next u :=
  ⟨⟨_, _, rfl, by decide, rfl⟩, _, _, rfl, by decide, rfl⟩

/-- A buffer that validates, and one that differs from it in byte 25 or in byte 0. -/
theorem witness_OneWrongByte_first :
    ∀ k ∈ [0, 25], ∃ t t', (State.reset.mem.read (bufferAt .rx + k) ≠ (State.reset.mem.write (bufferAt .rx + k) 1).read (bufferAt .rx + k)) ∧
      exec (.validate .rx) State.reset = .next t ∧
      exec (.validate .rx) { State.reset with mem := State.reset.mem.write (bufferAt .rx + k) 1 } = .next t' ∧
      (∀ i, i < 26 → i ≠ k →
        State.reset.mem.read (bufferAt .rx + i) = (State.reset.mem.write (bufferAt .rx + k) 1).read (bufferAt .rx + i)) ∧
      t.chk.ok = true := by
  intro k hk
  refine ⟨_, _, ?_, rfl, rfl, ?_, by decide⟩ <;> fin_cases hk <;> decide

/-- Two errors, in bytes 24 and 0, that cancel. -/
theorem witness_OneWrongByte_second :
    let m : Memory := (State.reset.mem.write 0xB8 1).write 0xA0 255
    State.reset.mem.read (bufferAt .rx + 24) ≠ m.read (bufferAt .rx + 24) ∧
    (∀ i, i < 26 → i ≠ 24 → i ≠ 0 → State.reset.mem.read (bufferAt .rx + i) = m.read (bufferAt .rx + i)) ∧
    State.reset.mem.read (bufferAt .rx + 24) + State.reset.mem.read (bufferAt .rx + 0)
      = m.read (bufferAt .rx + 24) + m.read (bufferAt .rx + 0) := by decide

/-- The last four bytes; a field read at width 3 and from its last byte. -/
theorem witness_FieldIsLittleEndian : (1 : Nat) ≤ 4 ∧ 4 ≤ 4 ∧ 22 + 4 ≤ 26 := by decide
theorem witness_NarrowRead : (1 : Nat) ≤ 3 ∧ 3 < 4 ∧ 4 ≤ 4 ∧ 22 + 4 ≤ 26 ∧ 3 < 4 := by decide

theorem witness_EchoedFrame :
    let t := after (.encNum 0x23) (withArg 0x12345678)
    let u := withRx t.txFrame t
    exec (.encNum 0x23) (withArg 0x12345678) = .next t ∧ t.status.err = .ok ∧ u.rxFrame = t.txFrame ∧ u.rxlen = 26 :=
  ⟨rfl, by decide, by decide, by decide⟩

theorem witness_Receive :
    (State.reset.script = [] ∧ (withPins quiet State.reset).pins.rxValid = false) ∧
    (∀ n ∈ [0, 25], let s := { txState (byteIn 0x11) with rxlen := n }
      s.pins.rxValid = true ∧ s.rxw = true ∧ s.rxlen.toNat < 26) ∧
    ((txState (byteIn 0x11)).pins.rxValid = true ∧ 26 ≤ ({ txState (byteIn 0x11) with rxlen := 26 } : State).rxlen.toNat) ∧
    (withPins (byteIn 0x11) State.reset).pins.rxValid = true ∧ (withPins (byteIn 0x11) State.reset).rxw = false := by
  decide

theorem witness_FrameIsSent :
    (∀ p ∈ [quiet, ready], let s := txState p
      s.txByte 0 = 0xAA ∧ s.txByte 1 = 0 ∧ s.txByte 2 = SubAddr.statusQuery.code ∧ s.st = .tx ∧ s.pins.lnkErr = false) ∧
    (txState quiet).pins.txReady = false ∧ (txState ready).pins.txReady = true ∧
    ({ txState ready with txIdx := 24 } : State).txIdx.toNat < 25 ∧
    ({ txState ready with txIdx := 25 } : State).rxlen.toNat ≠ 26 ∧
    ({ txState ready with st := .idle } : State).st ≠ .tx := by decide

theorem witness_EarlyResponse :
    let s := withRx (shortFrame 0x26 0x80 0x50) { txState ready with txIdx := 25 }
    s.mem.wf = true ∧ s.st = .tx ∧ s.pins.lnkErr = false ∧ s.pins.txReady = true ∧ s.txIdx = 25 ∧ s.txByte 0 = 0xAA ∧
    s.txByte 1 = 0 ∧ s.txByte 2 = SubAddr.statusQuery.code ∧ s.rxlen = 26 ∧ s.rxByte 0 = 0xAA ∧ s.rxByte 1 = 0 ∧
    s.rxByte 2 = 0x26 := by decide

/-- The step's clause: a TXBUF that is no command frame and a response without sync, complete before or in this cycle. -/
theorem witness_EarlyResponse_step :
    ∀ p ∈ [(ready, (26 : BitVec 5)), ({ ready with rxValid := true, busWr := true }, 25)],
      let s := withPins p.1 { sending .xfer State.reset with txIdx := 25, rxlen := p.2 }
      s.Inv ∧ s.pins.rst = false ∧ s.st = .tx ∧ s.pins.lnkErr = false ∧ s.pins.txReady = true ∧ s.txIdx = 25 ∧
      (s.rxlen = 26 ∨ (s.rxlen = 25 ∧ s.pins.rxValid = true)) ∧ s.txByte 0 ≠ 0xAA ∧ s.rxByte 0 ≠ 0xAA := by
  intro p hp
  simp only [List.mem_cons, List.not_mem_nil, or_false] at hp
  rcases hp with rfl | rfl <;>
    exact ⟨inv_of_check _ (by decide), by decide, by decide, by decide, by decide, by decide, by decide, by decide, by decide⟩

theorem witness_LinkFault_exchanging :
    ∀ s ∈ [txState linkFault, rxState .status State.reset 0xAA linkFault],
      s.Inv ∧ s.pins.rst = false ∧ s.pins.lnkErr = true ∧ s.exchanging := by
  intro s hs
  simp only [List.mem_cons, List.not_mem_nil, or_false] at hs
  rcases hs with rfl | rfl
  · exact ⟨inv_of_check _ (by decide), by decide, by decide, .inl (by decide)⟩
  · exact ⟨inv_of_check _ (by decide), by decide, by decide, .inr (by decide)⟩

/-- In IDLE and in SETTLE, without a host write and with one. -/
theorem witness_LinkFault_elsewhere :
    ∀ p ∈ [linkFault, { hostWrite 0x04 0x0A with lnkErr := true }],
      ∀ s ∈ [withPins p State.reset, withPins p (settleState 2000 1)],
        s.Inv ∧ s.pins.rst = false ∧ s.pins.lnkErr = true ∧ ¬ s.exchanging ∧ s.script = p :: [] := by
  intro p hp s hs
  simp only [List.mem_cons, List.not_mem_nil, or_false] at hp hs
  rcases hp with rfl | rfl <;> rcases hs with rfl | rfl <;>
    exact ⟨inv_of_check _ (by decide), by decide, by decide, by unfold State.exchanging; decide, rfl⟩

/-- The first byte and the 25th, with a timeout that comes, one that does not, and none. -/
theorem witness_IncompleteByte :
    ∀ n ∈ [(0 : Word), 1, 2], ∀ k ∈ [(0 : BitVec 5), 24],
      let s := { silentState n [byteIn 0x11] with rxlen := k }
      s.Inv ∧ s.st = .rx ∧ hostQuiet s.pins = true ∧ s.pins.lnkErr = false ∧ s.pins.rxValid = true ∧ s.rxlen.toNat < 25 := by
  intro n hn k hk
  simp only [List.mem_cons, List.not_mem_nil, or_false] at hn hk
  rcases hn with rfl | rfl | rfl <;> rcases hk with rfl | rfl <;>
    exact ⟨inv_of_check _ (by decide), by decide, by decide, by decide, by decide, by decide⟩

/-- Waiting with a timeout of 1 (it comes at once), of 2, and without one. -/
theorem witness_SilentCycle :
    ∀ n ∈ [(0 : Word), 1, 2], let s := silentState n [quiet]
      s.Inv ∧ s.st = .rx ∧ hostQuiet s.pins = true ∧ linkSilent s.pins = true := by
  intro n hn
  simp only [List.mem_cons, List.not_mem_nil, or_false] at hn
  rcases hn with rfl | rfl | rfl <;> exact ⟨inv_of_check _ (by decide), by decide, by decide, by decide⟩

/-- No cycle, two cycles of a timeout of 3, all three of them, and three without a timeout. -/
theorem witness_TimeoutComes :
    ∀ c ∈ [((3 : Word), 0), (3, 2), (3, 3), (0, 3)], let s := silentState c.1 (List.replicate c.2 quiet)
      s.Inv ∧ s.st = .rx ∧ s.tmr = 0 ∧ s.script = List.replicate c.2 quiet ++ [] ∧
      (∀ p ∈ List.replicate c.2 quiet, hostQuiet p = true ∧ linkSilent p = true) ∧
      (s.regs.rxTimeout = 0 ∨ (List.replicate c.2 quiet).length < s.regs.rxTimeout.toNat ∨
        (s.regs.rxTimeout ≠ 0 ∧ (List.replicate c.2 quiet).length = s.regs.rxTimeout.toNat)) := by
  intro c hc
  simp only [List.mem_cons, List.not_mem_nil, or_false] at hc
  rcases hc with rfl | rfl | rfl | rfl <;>
    exact ⟨inv_of_check _ (by decide), by decide, by decide, by decide, by decide, by decide⟩

theorem witness_TransmissionWaits :
    let s := { txState quiet with script := [quiet, hostWrite 0x14 1, byteIn 0x11] }
    s.Inv ∧ s.st = .tx ∧ s.script = [quiet, hostWrite 0x14 1, byteIn 0x11] ++ [] ∧
    ∀ p ∈ [quiet, hostWrite 0x14 1, byteIn 0x11], p.rst = false ∧ p.lnkErr = false ∧ p.txReady = false :=
  ⟨inv_of_check _ (by decide), by decide, by decide, by decide⟩

/-- R248's link with V2's response, no timeout or the shortest that suffices. -/
def xferState (timeout : Word) : State :=
  { State.reset with
    regs := { State.reset.regs with rxTimeout := timeout }
    script := hostWritePins 0x04 0x00000004 ::
      (List.replicate 26 (linkPins true none) ++ frameV2.map (fun b => linkPins false (some b)) ++ []) }

theorem witness_XferCompletes :
    frameV2.length = 26 ∧ ∀ n ∈ [(0 : Word), 26],
      (xferState n).st = .idle ∧ ((xferState n).regs.rxTimeout = 0 ∨ 26 ≤ (xferState n).regs.rxTimeout.toNat) ∧
      (xferState n).script = hostWritePins 0x04 0x00000004 ::
        (List.replicate 26 (linkPins true none) ++ frameV2.map (fun b => linkPins false (some b)) ++ []) := by
  refine ⟨by decide, fun n hn => ⟨rfl, ?_, rfl⟩⟩
  simp only [List.mem_cons, List.not_mem_nil, or_false] at hn
  rcases hn with rfl | rfl
  · exact .inl rfl
  · exact .inr (by decide)

/-- A complete response to each command that waits for one. -/
theorem witness_ResponseCompletes :
    (∀ c ∈ [(Instr.xfer, (4 : BitVec 4)), (.remote, 5), (.output, 6), (.setMaxv, 7), (.setImax, 8), (.status, 9)],
      let s : State := { waitingFor c.1 State.reset frameV2 with rxlen := 26 }
      (s.st = .rx ∧ s.rxlen = 26 ∧ s.rxByte 0 = 0xAA ∧ s.rxByte 1 = 0 ∧ s.rxByte 2 = 0x26) ∧ s.opr = c.2) := by
  decide

/-- The two refusals and the completion of a single-shot command: a corrupt checksum, an acknowledgement that is not 0x80, a good
one. -/
theorem witness_ResponseCompletesSingleShot_outcomes :
    let corrupt : State := { waitingFor .setMaxv { State.reset with regs := { State.reset.regs with chkEn := true } }
      (shortFrame 0x22 0x80 0x00) with rxlen := 26 }
    let nack : State := { waitingFor .setMaxv State.reset (shortFrame 0x22 0x90 0x5C) with rxlen := 26 }
    let good : State := { waitingFor .setMaxv State.reset (shortFrame 0x22 0x80 0x4C) with rxlen := 26 }
    (corrupt.regs.chkEn = true ∧ (checkVerdict corrupt .rx).ok = false) ∧ nack.rxByte 3 ≠ 0x80 ∧ good.rxByte 3 = 0x80 := by
  decide

/-- A complete response to a ramp step. -/
def answeredRamp (target delay : Word) : State :=
  { waitingFor .ramp (rampFrom0 target 500 0 delay) (shortFrame 0x23 0x80 0x4D) with rxlen := 26 }

theorem witness_ResponseRecordsTheRampStep :
    ((answeredRamp 500 0).st = .rx ∧ (answeredRamp 500 0).rxlen = 26 ∧ (answeredRamp 500 0).rxByte 0 = 0xAA ∧
      (answeredRamp 500 0).rxByte 1 = 0 ∧ (answeredRamp 500 0).rxByte 2 = 0x23) ∧ (answeredRamp 500 0).opr = 10 := by decide

/-- A final step without a settle wait, a step before it, and one with a wait. -/
theorem witness_ResponseRecordsTheRampStep_outcomes :
    ((answeredRamp 500 0).ramp.delay = 0 ∧ (answeredRamp 500 0).ramp.final = true) ∧
    ((answeredRamp 2000 0).ramp.delay = 0 ∧ (answeredRamp 2000 0).ramp.final = false) ∧
    (answeredRamp 2000 2).ramp.delay ≠ 0 := by decide

/-- Completed in RX by this cycle's byte; completed in TX by it with the last byte taken; complete in TX before. -/
theorem witness_ResponseWithoutSync :
    ∀ c ∈ [(Instr.xfer, State.reset), (.remote, State.reset), (.ramp, rampFrom0 2000 500 0 0)],
      ∀ s ∈ [rxState c.1 c.2 0x55 (byteIn 0x11),
          withPins (linkPins true (some 0x11)) { sending c.1 c.2 with txIdx := 25, rxlen := 25 },
          withPins ready { sending c.1 c.2 with txIdx := 25, rxlen := 26 }],
        s.Inv ∧ hostQuiet s.pins = true ∧ s.pins.lnkErr = false ∧ (s.rxByte 0).toNat ≠ 0xAA ∧
        ((s.rxlen = 25 ∧ s.pins.rxValid = true) ∨ (s.st = .tx ∧ s.rxlen = 26)) ∧
        (s.st = .rx ∨ (s.st = .tx ∧ s.pins.txReady = true ∧ s.txIdx = 25)) := by
  intro c hc s hs
  simp only [List.mem_cons, List.not_mem_nil, or_false] at hc hs
  rcases hc with rfl | rfl | rfl <;> rcases hs with rfl | rfl | rfl <;>
    exact ⟨inv_of_check _ (by decide), by decide, by decide, by decide, by decide, by decide⟩

/-- A count that goes on, the next step, the end; without a byte and with a stray one. -/
theorem witness_SettleCounts :
    ∀ c ∈ [((2000 : Word), (2 : Word)), (2000, 1), (500, 1)], ∀ p ∈ [quiet, byteIn 0x11],
      let s := withPins p (settleState c.1 c.2)
      s.Inv ∧ s.st = .settle ∧ s.pins.rst = false ∧ s.pins.busWr = false := by
  intro c hc p hp
  simp only [List.mem_cons, List.not_mem_nil, or_false] at hc hp
  rcases hc with rfl | rfl | rfl <;> rcases hp with rfl | rfl <;>
    exact ⟨inv_of_check _ (by decide), by decide, by decide, by decide⟩

theorem witness_NextPosition :
    let u : RampRegs := { State.reset.ramp with target := 0xFFFFFFFF, step := 0xFFFFFFFF, up := true }
    let d : RampRegs := { State.reset.ramp with pos := 0xFFFFFFFF, step := 1 }
    (u.step ≠ 0 ∧ u.up = true ∧ u.pos.toNat < u.target.toNat) ∧ d.step ≠ 0 ∧ d.up = false ∧ d.target.toNat < d.pos.toNat := by
  decide

/-- A ramp that ends: at its last settle cycle without error, and by a link fault with one. -/
theorem witness_RampEnds :
    (∃ t, (settleState 500 1).Inv ∧ (settleState 500 1).ramping ∧ (settleState 500 1).pins.rst = false ∧
      step (settleState 500 1) = .next t ∧ t.st = .idle ∧ t.status.err = .ok) ∧
    ∃ s t, State.Inv s ∧ s.ramping ∧ s.pins.rst = false ∧ step s = .next t ∧ t.st = .idle ∧ t.status.err ≠ .ok :=
  ⟨⟨_, inv_of_check _ (by decide), ⟨by decide, by decide⟩, by decide, rfl, by decide, by decide⟩,
    withPins linkFault (sending .ramp (rampFrom0 2000 500 0 0)), _, inv_of_check _ (by decide), ⟨by decide, by decide⟩,
    by decide, rfl, by decide, by decide⟩

/-- The first and the last address of each register's word. -/
theorem witness_WrittenRegister :
    ∀ c ∈ [(Reg.cfg, 2), (.devAddr, 8), (.arg, 32), (.paylen, 5), (.rxlen, 5), (.rxTimeout, 32), (.rampFrom, 32),
        (.rampTo, 32), (.rampStep, 32), (.rampOffset, 32), (.settle, 32)],
      ∀ d ∈ [(0 : BitVec 8), 3],
        let s := withPins (hostWrite (c.1.addr + d) 0xFFFFFFFF) State.reset
        invCheck s = true ∧ s.st = .idle ∧ s.pins.rst = false ∧ s.pins.busWr = true ∧
        s.pins.busAddr.toNat / 4 = c.1.addr.toNat / 4 := by decide

/-- The first word of TXBUF and the last, half existing, words of the three buffers. -/
theorem witness_BufferWord :
    ∀ c ∈ [(0x80, 26, 0), (0x80, 26, 6), (0xA0, 26, 6), (0xC0, 22, 5)],
      let s := withPins (hostWrite (BitVec.ofNat 8 (c.1 + 4 * c.2.2)) 0x11223344) State.reset
      (c.1, c.2.1) ∈ [(0x80, 26), (0xA0, 26), (0xC0, 22)] ∧ 4 * c.2.2 < c.2.1 ∧ invCheck s = true ∧ s.st = .idle ∧
      s.pins.rst = false ∧ s.pins.busWr = true ∧ s.pins.busAddr.toNat / 4 = c.1 / 4 + c.2.2 := by decide

/-- A busy block, a write of ARG and one of a reserved address; a write of STATUS, busy and idle. -/
theorem witness_BusyWrite :
    ∀ p ∈ [hostWrite 0x14 7, hostWrite 0xFC 7], ∃ t u,
      (txState p).st ≠ .idle ∧ (txState p).script = p :: [] ∧ p.rst = false ∧ p.busWr = true ∧ p.busAddr.toNat / 4 ≠ 2 ∧
      step (txState p) = .next t ∧ step { txState p with script := { p with busWr := false } :: [] } = .next u := by
  intro p hp
  simp only [List.mem_cons, List.not_mem_nil, or_false] at hp
  rcases hp with rfl | rfl <;> exact ⟨_, _, by decide, rfl, rfl, rfl, by decide, rfl, rfl⟩

theorem witness_StatusWrite :
    ∀ s ∈ [txState (hostWrite 0x08 0x30002), withPins (hostWrite 0x08 0x30002) State.reset],
      s.script = hostWrite 0x08 0x30002 :: [] ∧ (hostWrite 0x08 0x30002).rst = false ∧ (hostWrite 0x08 0x30002).busWr = true ∧
      (hostWrite 0x08 0x30002).busAddr.toNat / 4 = 2 := by decide

theorem witness_ReadOnlyAndReserved :
    ∀ p ∈ [hostWrite 0x00 1, hostWrite 0x60 1, hostWrite 0x64 1, hostWrite 0xFF 1],
      (withPins p State.reset).st = .idle ∧ (withPins p State.reset).script = p :: [] ∧ p.rst = false ∧ p.busWr = true ∧
      (regAt p.busAddr = none ∨ ∃ r ∈ [Reg.id, .rampPos, .rampCnt, .errInfo, .result, .decHdr, .decFlags, .curMeas, .voltMeas,
        .imax, .vmax, .vset], regAt p.busAddr = some r) := by decide

theorem witness_ReadsHaveNoEffect :
    (withPins quiet State.reset).script = quiet :: [] ∧ quiet.busWr = false := by decide

/-- Steps of a busy block: a byte sent, a byte received, a settle cycle that starts the next ramp step, one that ends the ramp. -/
theorem witness_BusyBlock :
    ∀ s ∈ [txState ready, rxState .status State.reset 0xAA (byteIn 0), settleState 2000 1, settleState 500 1],
      ∃ t, s.st ≠ .idle ∧ s.pins.rst = false ∧ step s = .next t ∧ s.Inv := by
  intro s hs
  simp only [List.mem_cons, List.not_mem_nil, or_false] at hs
  rcases hs with rfl | rfl | rfl | rfl <;> exact ⟨_, by decide, by decide, rfl, inv_of_check _ (by decide)⟩

/-- Steps that change RAMP_CNT, RESULT and a decoded field. -/
theorem witness_ResultsAreWritten :
    (∃ s t, State.Inv s ∧ s.pins.rst = false ∧ step s = .next t ∧ t.rampCnt ≠ s.rampCnt) ∧
    (∃ s t, State.Inv s ∧ s.pins.rst = false ∧ step s = .next t ∧ t.result ≠ s.result) ∧
    ∃ s t, State.Inv s ∧ s.pins.rst = false ∧ step s = .next t ∧ t.dec ≠ s.dec := by
  refine ⟨⟨withPins (byteIn 0x4D) (waitingFor .ramp (rampFrom0 2000 500 0 0) ([0xAA, 0x00, 0x23, 0x80] ++ zeros 21)), _,
      inv_of_check _ (by decide), by decide, rfl, by decide⟩,
    ⟨withPins (hostWrite 0x04 0x0023000C) (withRx frameV2 { State.reset with mem := [] , result := 7 }), _,
      inv_of_check _ (by decide), by decide, rfl, by decide⟩,
    ⟨withPins (hostWrite 0x04 0x00000003) (withRx frameV2 State.reset), _, inv_of_check _ (by decide), by decide, rfl, by decide⟩⟩

/-- DONE rises in an idle block that accepts a command, and in a busy one that ends it. -/
theorem witness_DoneRises :
    ∀ s ∈ [withPins (hostWrite 0x04 0x0B) State.reset, txState linkFault],
      ∃ t, s.pins.rst = false ∧ step s = .next t ∧ s.status.done = false ∧ t.status.done = true := by
  intro s hs
  simp only [List.mem_cons, List.not_mem_nil, or_false] at hs
  rcases hs with rfl | rfl <;> exact ⟨_, by decide, rfl, by decide, by decide⟩

theorem witness_ResetEdge : (txState { ready with rst := true }).pins.rst = true := by decide

/-- R240: in TX, with the link ready, no byte is offered or taken in a cycle of reset; without reset it is (R151). -/
theorem test_reset_takes_no_byte :
    (txState { ready with rst := true }).txValid = false ∧ (txState { ready with rst := true }).sentByte = none ∧
    (txState ready).sentByte = some 0xAA := by decide

/-- A completed command's state with interrupts enabled. -/
def irqState (p : Pins) : State :=
  withPins p { State.reset with status := { State.reset.status with done := true }, regs := { State.reset.regs with irqEn := true } }

/-- R218: irq falls at a reset edge, not before it (log 14). -/
theorem test_irq_falls_at_the_reset_edge :
    (irqState { ready with rst := true }).irq = true ∧ (stepped (irqState { ready with rst := true })).irq = false ∧
    (irqState ready).irq = true := by decide

/-- V6: the error word as the host reads it. -/
theorem test_errInfo_read : busRead (after (.encNum 0xFF) State.reset) 0x40 = 0x0002FF09 := by decide

/-- The invariant in an idle, a sending, a waiting and a settling block. -/
theorem witness_EveryStepKeepsTheInvariant :
    ∀ s ∈ [State.reset, txState ready, rxState .status State.reset 0xAA (byteIn 0), settleState 2000 1], s.Inv := by
  intro s hs
  simp only [List.mem_cons, List.not_mem_nil, or_false] at hs
  rcases hs with rfl | rfl | rfl | rfl <;> exact inv_of_check _ (by decide)

theorem witness_FlagCommands :
    (Instr.remote = .remote ∧ (5 : BitVec 4) = 5 ∧ (0x20 : Byte) = 0x20) ∧
    (Instr.output = .output ∧ (6 : BitVec 4) = 6 ∧ (0x21 : Byte) = 0x21) := by decide

theorem witness_NumericCommands :
    (Instr.setMaxv = .setMaxv ∧ (7 : BitVec 4) = 7 ∧ (0x22 : Byte) = 0x22) ∧
    (Instr.setImax = .setImax ∧ (8 : BitVec 4) = 8 ∧ (0x24 : Byte) = 0x24) := by decide

/-- The first and last rows of R86; the last buffer word and the ends of the reserved ranges. -/
theorem witness_CommandWord : (1 ≤ 1 ∧ 1 ≤ 12) ∧ 1 ≤ 12 ∧ 12 ≤ 12 := by decide
theorem witness_ReadsFollowTheMap :
    ((0xC0, 22) ∈ [(0x80, 26), (0xA0, 26), (0xC0, 22)] ∧ 4 * 5 < 22 ∧ 3 < 4) ∧ (0x9C#8).toNat / 4 = 39 ∧
    (0xBC#8).toNat / 4 = 47 ∧ 25 ≤ (0x64#8).toNat / 4 ∧ (0x7F#8).toNat / 4 ≤ 31 ∧ 54 ≤ (0xD8#8).toNat / 4 := by decide

end Sys2Proof.Tests
end

section
/-! Words made of fields: what the bits of a concatenation are, the layouts of the words the host reads (R27, R28, R40, R42,
R43), and the statements about them. -/

namespace Sys2Proof.Machine

/-! ### Bits of a concatenation

The model's words have type `BitVec 32`, where the library's lemmas expect a sum of widths: `no_index` lets `simp` look
past that difference. -/

theorem getLsbD_concat {n m : Nat} (x : BitVec n) (y : BitVec m) (i : Nat) :
    BitVec.getLsbD (no_index (x ++ y)) i = if i < m then y.getLsbD i else x.getLsbD (i - m) :=
  BitVec.getLsbD_append

theorem extractLsb'_concat_low {n m start len : Nat} (x : BitVec n) (y : BitVec m) (h : start + len ≤ m) :
    BitVec.extractLsb' start len (no_index (x ++ y)) = y.extractLsb' start len :=
  BitVec.extractLsb'_append_eq_of_add_le h

theorem extractLsb'_concat_high {n m start len : Nat} (x : BitVec n) (y : BitVec m) (h : m ≤ start) :
    BitVec.extractLsb' start len (no_index (x ++ y)) = x.extractLsb' (start - m) len :=
  BitVec.extractLsb'_append_eq_of_le h

theorem and_concat {n m : Nat} (x x' : BitVec n) (y y' : BitVec m) :
    @HAnd.hAnd (no_index _) (no_index _) (no_index _) _ (no_index (x ++ y)) (no_index (x' ++ y')) =
      (x &&& x') ++ (y &&& y') :=
  BitVec.and_append

/-! ### STATUS (R27) -/

theorem statusWord_flags (s : State) :
    s.statusWord.getLsbD 0 = s.busy ∧ s.statusWord.getLsbD 1 = s.status.done ∧ s.statusWord.getLsbD 2 = s.status.fv ∧
    s.statusWord.getLsbD 16 = s.status.busyWr ∧ s.statusWord.getLsbD 17 = s.status.stray := by
  simp [State.statusWord, getLsbD_concat, -BitVec.getLsbD_eq_getElem]

theorem statusWord_codes (s : State) :
    s.statusWord.extractLsb' 4 3 = s.status.err.code ∧ s.statusWord.extractLsb' 8 3 = s.st.code := by
  simp [State.statusWord, extractLsb'_concat_high, extractLsb'_concat_low]

theorem statusWord_reserved (s : State) : s.statusWord &&& 0xFFFCF888#32 = 0#32 := by
  have mask : 0xFFFCF888#32 = 0x3FFF#14 ++ 0#1 ++ 0#1 ++ 0x1F#5 ++ 0#3 ++ 1#1 ++ 0#3 ++ 1#1 ++ 0#1 ++ 0#1 ++ 0#1 := rfl
  rw [mask, State.statusWord]
  simp [↓and_concat]

/-- Settles O47: the flags, the two codes and the reserved bits of the layout. -/
theorem statusWordHasItsFields : Obligations.StatusWordHasItsFields := by
  intro s
  obtain ⟨hbusy, hdone, hfv, hbusyWr, hstray⟩ := statusWord_flags s
  obtain ⟨herr, hst⟩ := statusWord_codes s
  refine ⟨hbusy, hdone, hfv, herr.trans ?_, hst.trans ?_, hbusyWr, hstray, statusWord_reserved s⟩
  · cases s.status.err <;> rfl
  · cases s.st <;> rfl

/-! ### CFG, ERR_INFO, DEC_HDR and DEC_FLAGS (R28, R40, R42, R43) -/

theorem cfgWord_fields (s : State) :
    s.cfgWord.getLsbD 0 = s.regs.chkEn ∧ s.cfgWord.getLsbD 1 = s.regs.irqEn := by
  simp [State.cfgWord, getLsbD_concat, -BitVec.getLsbD_eq_getElem]

theorem cfgWord_reserved (s : State) : s.cfgWord &&& 0xFFFFFFFC#32 = 0#32 := by
  have mask : 0xFFFFFFFC#32 = 0x3FFFFFFF#30 ++ 0#1 ++ 0#1 := rfl
  rw [mask, State.cfgWord]
  simp [↓and_concat]

theorem errInfoWord_fields (s : State) :
    s.errInfoWord.extractLsb' 0 4 = s.errInfo.detail.code ∧ s.errInfoWord.extractLsb' 8 8 = s.errInfo.sub ∧
    s.errInfoWord.extractLsb' 16 4 = s.errInfo.op := by
  simp [State.errInfoWord, extractLsb'_concat_high, extractLsb'_concat_low]

theorem errInfoWord_reserved (s : State) : s.errInfoWord &&& 0xFFF000F0#32 = 0#32 := by
  have mask : 0xFFF000F0#32 = 0xFFF#12 ++ 0#4 ++ 0#8 ++ 0xF#4 ++ 0#4 := rfl
  rw [mask, State.errInfoWord]
  simp [↓and_concat]

theorem decHdrWord_fields (s : State) :
    s.decHdrWord.extractLsb' 0 8 = s.dec.rxDev ∧ s.decHdrWord.extractLsb' 8 8 = s.dec.rxSub ∧
    s.decHdrWord.extractLsb' 16 8 = s.dec.ack ∧ s.decHdrWord.extractLsb' 24 8 = s.dec.state := by
  simp [State.decHdrWord, extractLsb'_concat_high, extractLsb'_concat_low]

theorem decFlagsWord_fields (s : State) :
    s.decFlagsWord.extractLsb' 0 8 = s.chk.sum ∧ s.decFlagsWord.extractLsb' 8 8 = s.chk.rcv ∧
    s.decFlagsWord.getLsbD 16 = s.chk.ok ∧ s.decFlagsWord.getLsbD 17 = s.dec.ackOk ∧
    s.decFlagsWord.getLsbD 18 = s.dec.outOn := by
  simp [State.decFlagsWord, extractLsb'_concat_high, extractLsb'_concat_low, getLsbD_concat,
    -BitVec.getLsbD_eq_getElem]

theorem decFlagsWord_reserved (s : State) : s.decFlagsWord &&& 0xFFF80000#32 = 0#32 := by
  have mask : 0xFFF80000#32 = 0x1FFF#13 ++ 0#1 ++ 0#1 ++ 0#1 ++ 0#8 ++ 0#8 := rfl
  rw [mask, State.decFlagsWord]
  simp [↓and_concat]

/-- Settles O59: the layouts of the four words, each standing at its address of the map (R23). -/
theorem recordWordsHaveTheirFields : Obligations.RecordWordsHaveTheirFields := by
  intro s
  have hcfg : busRead s 0x0C = s.cfgWord := rfl
  have herr : busRead s 0x40 = s.errInfoWord := rfl
  have hhdr : busRead s 0x48 = s.decHdrWord := rfl
  have hflags : busRead s 0x4C = s.decFlagsWord := rfl
  rw [hcfg, herr, hhdr, hflags]
  obtain ⟨hchkEn, hirqEn⟩ := cfgWord_fields s
  obtain ⟨hdetail, hsub, hop⟩ := errInfoWord_fields s
  obtain ⟨hsum, hrcv, hok, hack, hout⟩ := decFlagsWord_fields s
  refine ⟨⟨hchkEn, hirqEn, cfgWord_reserved s⟩, ⟨hdetail.trans ?_, hsub, hop, errInfoWord_reserved s⟩,
    decHdrWord_fields s, ⟨hsum, hrcv, hok, hack, hout, decFlagsWord_reserved s⟩⟩
  cases s.errInfo.detail <;> rfl

end Sys2Proof.Machine
end

section
/-! The host bus: which register stands at an address (R23), what its read answers (R62), and what a write of a read-write
register does (R24, R65). -/

namespace Sys2Proof.Machine

/-! ### The register map (R23) -/

/-- Only the word of an address counts: bits 1:0 are ignored (R64). -/
theorem regAt_eq_of_word_eq {a b : BitVec 8} (h : a.toNat / 4 = b.toNat / 4) : regAt a = regAt b := by
  simp only [regAt, h]

theorem busRead_eq_of_word_eq (s : State) {a b : BitVec 8} (h : a.toNat / 4 = b.toNat / 4) : busRead s a = busRead s b := by
  simp only [busRead, regAt_eq_of_word_eq h]

theorem busRead_of_regAt {s : State} {a : BitVec 8} {r : Reg} (h : regAt a = some r) : busRead s a = readReg s r := by
  simp only [busRead, h]

theorem busRead_of_reserved {s : State} {a : BitVec 8} (h : regAt a = none) : busRead s a = 0 := by
  simp only [busRead, h]

/-- A register stands only at the addresses of its own word. -/
theorem word_eq_of_regAt {a : BitVec 8} {r : Reg} (h : regAt a = some r) : a.toNat / 4 = r.addr.toNat / 4 := by
  have every : ∀ a : BitVec 8, ∀ r ∈ regAt a, a.toNat / 4 = r.addr.toNat / 4 := by decide
  exact every a r h

/-- The reserved words of the map. -/
theorem regAt_eq_none {a : BitVec 8}
    (h : a.toNat / 4 = 39 ∨ a.toNat / 4 = 47 ∨ (25 ≤ a.toNat / 4 ∧ a.toNat / 4 ≤ 31) ∨ 54 ≤ a.toNat / 4) :
    regAt a = none := by
  unfold regAt
  rw [if_neg (by omega), if_neg (by omega), if_neg (by omega), if_neg (by omega)]

/-! ### Buffer words (R63) -/

/-- The base address and the size of each frame buffer (R49 to R51). -/
def buffers : List (Nat × Nat) := [(0x80, 26), (0xA0, 26), (0xC0, 22)]

/-- A word of a buffer reads as its four bytes. -/
theorem busRead_of_bufferWord (s : State) {base size k : Nat} (hb : (base, size) ∈ buffers) (hk : 4 * k < size)
    {a : BitVec 8} (ha : a.toNat / 4 = base / 4 + k) : busRead s a = bufWord s base k := by
  simp only [buffers, List.mem_cons, Prod.mk.injEq, List.not_mem_nil, or_false] at hb
  obtain ⟨rfl, rfl⟩ | ⟨rfl, rfl⟩ | ⟨rfl, rfl⟩ := hb
  · have hreg : regAt a = some (.txbuf k) := by
      unfold regAt
      rw [if_neg (by omega), if_pos (by omega), show a.toNat / 4 - 32 = k by omega]
    exact busRead_of_regAt hreg
  · have hreg : regAt a = some (.rxbuf k) := by
      unfold regAt
      rw [if_neg (by omega), if_neg (by omega), if_pos (by omega), show a.toNat / 4 - 40 = k by omega]
    exact busRead_of_regAt hreg
  · have hreg : regAt a = some (.paybuf k) := by
      unfold regAt
      rw [if_neg (by omega), if_neg (by omega), if_neg (by omega), if_pos (by omega), show a.toNat / 4 - 48 = k by omega]
    exact busRead_of_regAt hreg

/-- The last word of a buffer runs into bytes that do not exist; they read 0 (R63). -/
theorem read_past_buffer (m : Memory) {base size i : Nat} (hb : (base, size) ∈ buffers) (hi : size ≤ i) (h : i < size + 4) :
    m.read (base + i) = 0 := by
  have hgap : ¬ isBufferByte (base + i) = true := by
    rw [isBufferByte_iff]
    simp only [buffers, List.mem_cons, Prod.mk.injEq, List.not_mem_nil, or_false] at hb
    omega
  exact if_neg hgap

/-- Byte `j` of a buffer word (R63: the first byte in bits 7:0). -/
theorem extractLsb'_bufWord (s : State) (base k : Nat) {j : Nat} (hj : j < 4) :
    (bufWord s base k).extractLsb' (8 * j) 8 = s.mem.read (base + 4 * k + j) := by
  interval_cases j <;> simp [bufWord, wordOfBytes, extractLsb'_concat_high, extractLsb'_concat_low]

/-- Settles O46: the map, word by word; the buffers byte by byte. -/
theorem readsFollowTheMap : Obligations.ReadsFollowTheMap := by
  intro s addr
  refine ⟨busRead_eq_of_word_eq s ?_, rfl, ?_, ?_, fun h => busRead_of_reserved (regAt_eq_none h)⟩
  · revert addr
    decide
  · have hdev : busRead s 0x10 = s.regs.devAddr.setWidth 32 := rfl
    have hpay : busRead s 0x18 = s.paylen.setWidth 32 := rfl
    have hrx : busRead s 0x1C = s.rxlen.setWidth 32 := rfl
    have hcur : busRead s 0x50 = s.dec.curMeas.setWidth 32 := rfl
    have himax : busRead s 0x58 = s.dec.imax.setWidth 32 := rfl
    rw [hdev, hpay, hrx, hcur, himax]
    refine ⟨rfl, rfl, rfl, ?_, rfl, ?_, ?_, rfl, rfl, rfl, rfl, rfl, rfl, rfl, rfl, rfl, rfl, rfl, rfl, ?_, rfl, ?_, rfl, rfl⟩ <;>
      exact BitVec.toNat_setWidth_of_le (by decide)
  · intro base size k j hb hk hj
    have hword : (BitVec.ofNat 8 (base + 4 * k)).toNat / 4 = base / 4 + k := by
      simp only [List.mem_cons, Prod.mk.injEq, List.not_mem_nil, or_false] at hb
      rw [BitVec.toNat_ofNat]
      omega
    rw [busRead_of_bufferWord s hb hk hword, extractLsb'_bufWord s base k hj]
    split
    · rfl
    · rw [Nat.add_assoc]
      exact read_past_buffer s.mem hb (by omega) (by omega)

end Sys2Proof.Machine
end

section
/-! One clock cycle: what the block's own cycle finds after this cycle's STATUS write and received byte (R67, R153), and a write of
a read-write register to an idle block (R24, R65). -/

namespace Sys2Proof.Machine

/-! ### The state that the block's own cycle finds -/

/-- The state after this cycle's STATUS write and received byte, in which the block's own cycle runs (log 10). -/
def State.served (s : State) : State := receive (statusWrite s.pins s)

theorem step_of_not_rst {s : State} (h : s.pins.rst = false) : step s = thenTick (blockCycle s.pins s.served) := by
  simp [step, cycleEdge, h, State.served]

theorem statusWrite_of_ne {p : Pins} {s : State} (h : writtenReg p ≠ some .status) : statusWrite p s = s := if_neg h

/-- Outside an exchange a received byte is a stray (R56). -/
theorem receive_of_window_closed {s : State} (h : s.rxw = false) :
    receive s = { s with status := { s.status with stray := s.status.stray || s.pins.rxValid } } := by
  obtain ⟨hv, hr⟩ | ⟨-, hw, -⟩ | ⟨hv, -, hr⟩ := receive_cases s
  · rw [hr, hv, Bool.or_false]
  · exact absurd hw (by simp [h])
  · rw [hr, hv, Bool.or_true]

theorem State.EngineInv.rxw_eq_false {s : State} (h : s.EngineInv) (hst : s.st = .idle) : s.rxw = false := by
  have hclosed : ¬ s.exchanging := by simp [State.exchanging, hst]
  simpa using mt h.window.mp hclosed

/-- Without a STATUS write the block's own cycle finds an idle block as it was, but for a stray byte. -/
theorem served_of_idle {s : State} (hinv : s.EngineInv) (hst : s.st = .idle) (hw : writtenReg s.pins ≠ some .status) :
    s.served = { s with status := { s.status with stray := s.status.stray || s.pins.rxValid } } := by
  rw [State.served, statusWrite_of_ne hw, receive_of_window_closed (hinv.rxw_eq_false hst)]

/-- A write to an idle block of a register other than CMD and STATUS (R65). -/
theorem step_of_idle_write {s : State} {r : Reg} (hinv : s.EngineInv) (hst : s.st = .idle) (hrst : s.pins.rst = false)
    (hr : writtenReg s.pins = some r) (hcmd : r ≠ .cmd) (hstatus : r ≠ .status) :
    step s = .next (State.tick (writeReg r s.pins.busWdata
      { s with status := { s.status with stray := s.status.stray || s.pins.rxValid } })) := by
  have hw : writtenReg s.pins ≠ some .status := by simpa [hr] using hstatus
  rw [step_of_not_rst hrst, served_of_idle hinv hst hw]
  simp [blockCycle, hst, idleCycle, idleWrite, hr, hcmd, thenTick]

/-! ### The read-write operand registers (R24) -/

/-- The read-write registers outside the buffers, each with its width. -/
def operandRegs : List (Reg × Nat) :=
  [(Reg.cfg, 2), (.devAddr, 8), (.arg, 32), (.paylen, 5), (.rxlen, 5), (.rxTimeout, 32), (.rampFrom, 32), (.rampTo, 32),
    (.rampStep, 32), (.rampOffset, 32), (.settle, 32)]

theorem regAt_addr_of_operand {r : Reg} {width : Nat} (h : (r, width) ∈ operandRegs) : regAt r.addr = some r := by
  have every : ∀ c ∈ operandRegs, regAt c.1.addr = some c.1 := by decide
  exact every (r, width) h

theorem ne_cmd_and_status_of_operand {r : Reg} {width : Nat} (h : (r, width) ∈ operandRegs) : r ≠ .cmd ∧ r ≠ .status := by
  have every : ∀ c ∈ operandRegs, c.1 ≠ .cmd ∧ c.1 ≠ .status := by decide
  exact every (r, width) h

/-- CFG keeps two bits of what is written (R28). -/
theorem cfgWord_writeReg (v : Word) (s : State) : (writeReg .cfg v s).cfgWord = (v.setWidth 2).setWidth 32 := by
  apply BitVec.eq_of_getLsbD_eq
  intro i hi
  match i with
  | 0 => simp [State.cfgWord, writeReg, getLsbD_concat, -BitVec.getLsbD_eq_getElem]
  | 1 => simp [State.cfgWord, writeReg, getLsbD_concat, -BitVec.getLsbD_eq_getElem]
  | i + 2 => simp [State.cfgWord, writeReg, getLsbD_concat, -BitVec.getLsbD_eq_getElem]

/-- A register of width `n` that holds the low bits of a word reads as the word modulo `2 ^ n` (R24). -/
theorem toNat_setWidth_setWidth (v : Word) {n : Nat} (h : n ≤ 32) : ((v.setWidth n).setWidth 32).toNat = v.toNat % 2 ^ n := by
  rw [BitVec.toNat_setWidth_of_le h, BitVec.toNat_setWidth]

/-- A written register reads back masked to its width (R24). -/
theorem readReg_writeReg_self {r : Reg} {width : Nat} (h : (r, width) ∈ operandRegs) (v : Word) (s : State) :
    (readReg (writeReg r v s) r).toNat = v.toNat % 2 ^ width := by
  simp only [operandRegs, List.mem_cons, Prod.mk.injEq, List.not_mem_nil, or_false] at h
  have full : v.toNat = v.toNat % 2 ^ 32 := (Nat.mod_eq_of_lt v.isLt).symm
  obtain ⟨rfl, rfl⟩ | ⟨rfl, rfl⟩ | ⟨rfl, rfl⟩ | ⟨rfl, rfl⟩ | ⟨rfl, rfl⟩ | ⟨rfl, rfl⟩ | ⟨rfl, rfl⟩ | ⟨rfl, rfl⟩ | ⟨rfl, rfl⟩ |
    ⟨rfl, rfl⟩ | ⟨rfl, rfl⟩ := h
  · rw [readReg, cfgWord_writeReg]
    exact toNat_setWidth_setWidth v (by decide)
  · exact toNat_setWidth_setWidth v (by decide)
  · exact full
  · exact toNat_setWidth_setWidth v (by decide)
  · exact toNat_setWidth_setWidth v (by decide)
  · exact full
  · exact full
  · exact full
  · exact full
  · exact full
  · exact full

/-- Every other register reads as before. -/
theorem readReg_writeReg_of_ne {r r' : Reg} {width : Nat} (h : (r, width) ∈ operandRegs) (hne : r' ≠ r) (v : Word)
    (s : State) : readReg (writeReg r v s) r' = readReg s r' := by
  simp only [operandRegs, List.mem_cons, Prod.mk.injEq, List.not_mem_nil, or_false] at h
  obtain ⟨rfl, -⟩ | ⟨rfl, -⟩ | ⟨rfl, -⟩ | ⟨rfl, -⟩ | ⟨rfl, -⟩ | ⟨rfl, -⟩ | ⟨rfl, -⟩ | ⟨rfl, -⟩ | ⟨rfl, -⟩ | ⟨rfl, -⟩ |
    ⟨rfl, -⟩ := h
  · cases r' with | cfg => exact absurd rfl hne | _ => rfl
  · cases r' with | devAddr => exact absurd rfl hne | _ => rfl
  · cases r' with | arg => exact absurd rfl hne | _ => rfl
  · cases r' with | paylen => exact absurd rfl hne | _ => rfl
  · cases r' with | rxlen => exact absurd rfl hne | _ => rfl
  · cases r' with | rxTimeout => exact absurd rfl hne | _ => rfl
  · cases r' with | rampFrom => exact absurd rfl hne | _ => rfl
  · cases r' with | rampTo => exact absurd rfl hne | _ => rfl
  · cases r' with | rampStep => exact absurd rfl hne | _ => rfl
  · cases r' with | rampOffset => exact absurd rfl hne | _ => rfl
  · cases r' with | settle => exact absurd rfl hne | _ => rfl

/-- What a register write can reach: the operand registers and the buffers (R65). -/
theorem writeReg_frame (r : Reg) (v : Word) (s : State) :
    writeReg r v s =
      { s with
        regs := (writeReg r v s).regs, paylen := (writeReg r v s).paylen, rxlen := (writeReg r v s).rxlen,
        mem := (writeReg r v s).mem } := by
  cases r <;> rfl

theorem writeReg_mem_of_operand {r : Reg} {width : Nat} (h : (r, width) ∈ operandRegs) (v : Word) (s : State) :
    (writeReg r v s).mem = s.mem := by
  cases r with
  | txbuf k => simp [operandRegs] at h
  | rxbuf k => simp [operandRegs] at h
  | paybuf k => simp [operandRegs] at h
  | _ => rfl

/-- A stray byte shows in STATUS alone. -/
theorem readReg_stray {r : Reg} (h : r ≠ .status) (b : Bool) (s : State) :
    readReg { s with status := { s.status with stray := b } } r = readReg s r := by
  cases r with
  | status => exact absurd rfl h
  | _ => rfl

theorem busRead_tick (s : State) (a : BitVec 8) : busRead s.tick a = busRead s a := by
  unfold busRead
  rcases regAt a with _ | r
  · rfl
  · cases r <;> rfl

/-- Settles O44: the step is the register write alone (but for a stray byte), so each register reads by the rules above. -/
theorem writtenRegisterReadsBackMasked : Obligations.WrittenRegisterReadsBackMasked := by
  intro s r width hr hinv hst hrst hwr hword
  have hat : ∀ {a : BitVec 8}, a.toNat / 4 = r.addr.toNat / 4 → regAt a = some r :=
    fun ha => (regAt_eq_of_word_eq ha).trans (regAt_addr_of_operand hr)
  have hwritten : writtenReg s.pins = some r := by rw [writtenReg, if_pos hwr, hat hword]
  obtain ⟨hcmd, hstatus⟩ := ne_cmd_and_status_of_operand hr
  refine ⟨_, step_of_idle_write hinv.engine hst hrst hwritten hcmd hstatus, fun a ha => ?_, fun a ha hne => ?_, ?_⟩
  · rw [busRead_tick, busRead_of_regAt (hat ha), readReg_writeReg_self hr]
  · rw [busRead_tick]
    rcases hreg : regAt a with _ | r'
    · rw [busRead_of_reserved hreg, busRead_of_reserved hreg]
    · have hother : r' ≠ r := by
        rintro rfl
        exact ha (word_eq_of_regAt hreg)
      have hnot : r' ≠ .status := by
        rintro rfl
        exact hne (word_eq_of_regAt hreg)
      rw [busRead_of_regAt hreg, busRead_of_regAt hreg, readReg_writeReg_of_ne hr hother, readReg_stray hnot]
  · conv_lhs => rw [writeReg_frame, writeReg_mem_of_operand hr]
    rfl

end Sys2Proof.Machine
end

section
/-! What a step can do to the running command, to DONE and to the result registers (R38, R39, R41, R53, R131, R212): one lemma per
operation, from which the rules about the results and about DONE follow. -/

namespace Sys2Proof.Machine

/-! ### A command's progress -/

/-- The operations that decode a response (R131, R132, R171, R190): DECODE and every link command but XFER. -/
def isDecoding (op : BitVec 4) : Prop := op = 3 ∨ (5 ≤ op.toNat ∧ op.toNat ≤ 10)

/-- What the lemmas of this part follow: OPR, DONE and the result registers. -/
def State.ledger (s : State) : BitVec 4 × Bool × Word × Word × Word × Decoded :=
  (s.opr, s.status.done, s.rampPos, s.rampCnt, s.result, s.dec)

/-- A command has worked from `s` to `t` and has not ended on the way. -/
structure Carried (s t : State) : Prop where
  opr : t.opr = s.opr
  done : t.status.done = s.status.done
  ramp : (t.rampPos = s.rampPos ∧ t.rampCnt = s.rampCnt) ∨ t.opr = 10
  result : t.result = s.result
  dec : t.dec = s.dec ∨ (t.status.fv = true ∧ isDecoding t.opr)

/-- A cycle of a command has led from `s` to `t`: the command has ended with DONE = 1, or it goes on with DONE as it was. -/
structure Advanced (s t : State) : Prop where
  opr : t.opr = s.opr
  done : (t.st = .idle ∧ t.status.done = true) ∨ (t.st ≠ .idle ∧ t.status.done = s.status.done)
  ramp : (t.rampPos = s.rampPos ∧ t.rampCnt = s.rampCnt) ∨ t.opr = 10
  result : t.result = s.result ∨ (t.opr = 12 ∧ t.status.done = true ∧ t.status.err = .ok)
  dec : t.dec = s.dec ∨ (t.status.fv = true ∧ isDecoding t.opr)

theorem ledger_eq_iff (s t : State) :
    t.ledger = s.ledger ↔ t.opr = s.opr ∧ t.status.done = s.status.done ∧ t.rampPos = s.rampPos ∧
      t.rampCnt = s.rampCnt ∧ t.result = s.result ∧ t.dec = s.dec := by
  simp [State.ledger]

theorem Carried.of_ledger_eq {s t : State} (h : t.ledger = s.ledger) : Carried s t := by
  obtain ⟨hopr, hdone, hpos, hcnt, hresult, hdec⟩ := (ledger_eq_iff s t).mp h
  exact ⟨hopr, hdone, .inl ⟨hpos, hcnt⟩, hresult, .inl hdec⟩

theorem Advanced.of_ledger_eq {s x t : State} (h : Advanced x t) (hx : x.ledger = s.ledger) : Advanced s t := by
  obtain ⟨hopr, hdone, hpos, hcnt, hresult, hdec⟩ := (ledger_eq_iff s x).mp hx
  exact ⟨hopr ▸ h.opr, hdone ▸ h.done, hpos ▸ hcnt ▸ h.ramp, hresult ▸ h.result, hdec ▸ h.dec⟩

theorem Advanced.of_completeOk {s t : State} (h : Carried s t) : Advanced s (completeOk t) :=
  ⟨h.opr, .inl ⟨rfl, rfl⟩, h.ramp, .inl h.result, h.dec⟩

theorem Advanced.of_raiseError {s t : State} {c : ErrClass} {d : Detail} {sub : Byte} (h : Carried s t) :
    Advanced s (raiseError c d sub t) :=
  ⟨h.opr, .inl ⟨rfl, rfl⟩, h.ramp, .inl h.result, h.dec⟩

theorem Advanced.of_running {s t : State} (h : Carried s t) (hst : t.st ≠ .idle) : Advanced s t :=
  ⟨h.opr, .inr ⟨hst, h.done⟩, h.ramp, .inl h.result, h.dec⟩

theorem Advanced.of_startExchange {s t : State} (h : Carried s t) : Advanced s (startExchange t) :=
  ⟨h.opr, .inr ⟨by simp, h.done⟩, h.ramp, .inl h.result, h.dec⟩

theorem Advanced.of_next {s t u : State} (h : (.next u : Host.Outcome State Fault Refusal) = .next t) (hu : Advanced s u) :
    Advanced s t :=
  Host.Outcome.next.inj h ▸ hu

/-! ### The shared operations -/

/-- A decode writes the decoded fields only together with FV = 1 (R54, R131). -/
theorem carried_of_decodeFrame {s t : State} {d : Option Detail} (hop : isDecoding s.opr) (h : decodeFrame s = (t, d)) :
    Carried s t := by
  obtain ⟨-, e⟩ | ⟨-, -, e⟩ | ⟨-, -, -, -, e⟩ | ⟨-, -, -, e⟩ := decodeFrame_cases s
  all_goals obtain ⟨rfl, -⟩ := Prod.mk.inj (e.symm.trans h)
  · exact .of_ledger_eq rfl
  · exact .of_ledger_eq rfl
  · exact .of_ledger_eq rfl
  · exact ⟨rfl, rfl, .inl ⟨rfl, rfl⟩, rfl, .inr ⟨rfl, hop⟩⟩

/-- Building a frame writes TXBUF, PAYBUF and PAYLEN only (R112, R114). -/
theorem Carried.then_buildNumeric {s t : State} (h : Carried s t) (sub : Byte) (v : Word) :
    Carried s (buildNumeric sub v t) :=
  ⟨h.opr, h.done, h.ramp, h.result, h.dec⟩

theorem Carried.then_buildFromPayload {s t : State} (h : Carried s t) (sub : Byte) : Carried s (buildFromPayload sub t) :=
  ⟨h.opr, h.done, h.ramp, h.result, h.dec⟩

/-- A ramp step starts an exchange or fails; it records nothing (R171 parts 1 to 4). -/
theorem Advanced.of_rampStep {s t : State} (h : Carried s t) : Advanced s (rampStep t) := by
  have haimed : Carried s (aimed t) := ⟨h.opr, h.done, h.ramp, h.result, h.dec⟩
  obtain ⟨-, e⟩ | ⟨-, e⟩ := rampStep_cases t <;> rw [e]
  · exact .of_startExchange (haimed.then_buildNumeric ..)
  · exact .of_raiseError haimed

theorem Advanced.of_rampContinue {s t : State} (h : Carried s t) : Advanced s (rampContinue t) := by
  unfold rampContinue
  split
  · exact .of_completeOk h
  · exact .of_rampStep h

theorem settleCycle_advances {s : State} (hst : s.st ≠ .idle) : Advanced s (settleCycle s) := by
  obtain ⟨-, e⟩ | ⟨-, -, e⟩ | ⟨-, -, e⟩ := settleCycle_cases s
  · rw [e]
    exact .of_running (.of_ledger_eq rfl) hst
  · rw [e]
    exact .of_completeOk (.of_ledger_eq rfl)
  · rw [e]
    exact .of_rampStep (.of_ledger_eq rfl)

/-! ### The end of an exchange -/

theorem isDecoding_of_singleShotSub {op : BitVec 4} {a : SubAddr} (h : singleShotSub op = some a) : isDecoding op := by
  have every : ∀ op : BitVec 4, singleShotSub op ≠ none → 5 ≤ op.toNat ∧ op.toNat ≤ 10 := by decide
  exact .inr (every op (by simp [h]))

theorem singleShotAnswered_advances (a : SubAddr) {s : State} (hop : isDecoding s.opr) :
    Advanced s (singleShotAnswered a s) := by
  obtain ⟨t, d, hd, e⟩ | ⟨t, hd, -, -, e⟩ | ⟨t, hd, -, e⟩ := singleShotAnswered_cases a s
  all_goals have ht := carried_of_decodeFrame hop hd
  · exact e ▸ .of_raiseError ht
  · exact e ▸ .of_raiseError ht
  · exact e ▸ .of_completeOk ht

/-- Only here RAMP_POS and RAMP_CNT are written while a ramp runs (R171 part 5). -/
theorem rampAnswered_advances {s : State} (hop : s.opr = 10) : Advanced s (rampAnswered s) := by
  have hdecodes : isDecoding s.opr := .inr (by rw [hop]; decide)
  have recorded : ∀ {t : State}, Carried s t → Carried s (recordedStep t) :=
    fun ht => ⟨ht.opr, ht.done, .inr (ht.opr.trans hop), ht.result, ht.dec⟩
  obtain ⟨t, d, hd, e⟩ | ⟨t, hd, -, e⟩ | ⟨t, hd, -, -, e⟩ | ⟨t, hd, -, -, e⟩ := rampAnswered_cases s
  all_goals have ht := carried_of_decodeFrame hdecodes hd
  · exact e ▸ .of_raiseError ht
  · exact e ▸ .of_raiseError ht
  · exact e ▸ .of_rampContinue (recorded ht)
  · have hr := recorded ht
    rw [e]
    exact .of_running ⟨hr.opr, hr.done, hr.ramp, hr.result, hr.dec⟩ (by simp)

theorem exchangeOk_advances (s : State) : Advanced s (exchangeOk s) := by
  obtain ⟨a, ha, e⟩ | ⟨-, hop, e⟩ | ⟨-, -, e⟩ := exchangeOk_cases s
  · rw [e]
    exact .of_ledger_eq (singleShotAnswered_advances a (isDecoding_of_singleShotSub ha)) rfl
  · rw [e]
    exact .of_ledger_eq (rampAnswered_advances hop) rfl
  · rw [e]
    exact .of_completeOk (.of_ledger_eq rfl)

/-! ### The cycles of a busy block -/

theorem txCycle_advances {s : State} (hst : s.st ≠ .idle) : Advanced s (txCycle s) := by
  have htaken : Carried s (byteTaken s) := .of_ledger_eq rfl
  have hsent : Carried s (if s.pins.txReady then byteTaken s else s) := by
    split
    · exact htaken
    · exact .of_ledger_eq rfl
  obtain ⟨-, e⟩ | ⟨-, -, e⟩ | ⟨-, -, -, e⟩ | ⟨-, -, -, -, e⟩ | ⟨-, -, -, -, e⟩ := txCycle_cases s <;> rw [e]
  · exact .of_raiseError hsent
  · exact .of_running (.of_ledger_eq rfl) hst
  · exact .of_running htaken hst
  · exact .of_running (.of_ledger_eq rfl) (by simp)
  · exact .of_ledger_eq (exchangeOk_advances (byteTaken s)) rfl

theorem waitCycle_advances {s : State} (hst : s.st ≠ .idle) : Advanced s (waitCycle s) := by
  obtain ⟨-, -, e⟩ | ⟨-, e⟩ := waitCycle_cases s <;> rw [e]
  · exact .of_raiseError (.of_ledger_eq rfl)
  · exact .of_running (.of_ledger_eq rfl) hst

/-- What stands in TXBUF is a command frame or no instruction (R88). -/
theorem eq_ofFrame_of_decode_transmit {bs : List Byte} {i : Instr} (h : decode .transmit bs = .ok i) :
    ∃ a dev, i = Instr.ofFrame a dev := by
  match bs with
  | b0 :: b1 :: b2 :: _ =>
    simp only [decode, decodeCommandFrame] at h
    split at h
    · split at h
      · exact ⟨_, _, (Except.ok.inj h).symm⟩
      · cases h
    · cases h
  | [] | [_] | [_, _] => cases h

/-- What stands in RXBUF is a response frame or no instruction (R88). -/
theorem eq_frameResponse_of_decode_receive {bs : List Byte} {i : Instr} (h : decode .receive bs = .ok i) :
    ∃ dev sub, i = .frameResponse dev sub := by
  match bs with
  | b0 :: b1 :: b2 :: _ =>
    simp only [decode, decodeResponseFrame] at h
    split at h
    · exact ⟨_, _, (Except.ok.inj h).symm⟩
    · cases h
  | [] | [_] | [_, _] => cases h

theorem exec_ofFrame (a : SubAddr) (dev : Byte) (s : State) :
    exec (Instr.ofFrame a dev) s = .next (transmitFrame a dev s) := by
  cases a <;> rfl

theorem exec_frameResponse (dev sub : Byte) (s : State) :
    exec (.frameResponse dev sub) s = .next (takeResponse dev sub s) := rfl

/-- A TX cycle runs the same transmission whether TXBUF holds a frame or not (R159), up to the memory's listing. -/
theorem sendCycle_eq_txCycle {s : State} (hst : s.st = .tx) : ∃ m, sendCycle s = .next (txCycle { s with mem := m }) := by
  unfold sendCycle
  split
  case h_1 i h =>
    obtain ⟨a, dev, rfl⟩ := eq_ofFrame_of_decode_transmit h
    rw [exec_ofFrame, transmitFrame, if_pos hst]
    exact ⟨_, rfl⟩
  case h_2 => exact ⟨s.mem, rfl⟩

/-- The complete response is taken by the running command whether RXBUF holds a frame or not (R131, R159), up to the memory's
listing. -/
theorem answerCycle_eq_exchangeOk {s : State} (hst : s.st = .rx) :
    ∃ m, answerCycle s = .next (exchangeOk { s with mem := m }) := by
  unfold answerCycle
  split
  case h_1 i h =>
    obtain ⟨dev, sub, rfl⟩ := eq_frameResponse_of_decode_receive h
    rw [exec_frameResponse, takeResponse, if_pos hst]
    exact ⟨_, rfl⟩
  case h_2 => exact ⟨s.mem, rfl⟩

theorem sendCycle_advances {s t : State} (hst : s.st = .tx) (h : sendCycle s = .next t) : Advanced s t := by
  obtain ⟨m, e⟩ := sendCycle_eq_txCycle hst
  have hbusy : State.st { s with mem := m } ≠ .idle := by simp [hst]
  exact .of_next (e.symm.trans h) (.of_ledger_eq (txCycle_advances hbusy) rfl)

theorem receiveCycle_advances {s t : State} (hst : s.st = .rx) (h : receiveCycle s = .next t) : Advanced s t := by
  unfold receiveCycle at h
  split at h
  · exact .of_next h (.of_raiseError (.of_ledger_eq rfl))
  · split at h
    · obtain ⟨m, e⟩ := answerCycle_eq_exchangeOk hst
      exact .of_next (e.symm.trans h) (.of_ledger_eq (exchangeOk_advances _) rfl)
    · exact .of_next h (waitCycle_advances (by simp [hst]))

theorem busyWrite_frame (p : Pins) (s : State) :
    ∃ b, busyWrite p s = { s with status := { s.status with busyWr := b } } := by
  unfold busyWrite
  split <;> exact ⟨_, rfl⟩

theorem blockCycle_advances {p : Pins} {s t : State} (hst : s.st ≠ .idle) (h : blockCycle p s = .next t) : Advanced s t := by
  obtain ⟨b, hb⟩ := busyWrite_frame p s
  have hsame : (busyWrite p s).st = s.st := by rw [hb]
  have hledger : (busyWrite p s).ledger = s.ledger := by rw [hb]; rfl
  refine .of_ledger_eq ?_ hledger
  unfold blockCycle at h
  split at h
  case h_1 hs => exact absurd hs hst
  case h_2 hs => exact sendCycle_advances (hsame.trans hs) h
  case h_3 hs => exact receiveCycle_advances (hsame.trans hs) h
  case h_4 hs => exact .of_next h (settleCycle_advances (by simp [hsame, hs]))

/-! ### The acceptance of a command -/

theorem place_of_ite {c : Prop} [Decidable c] {a b : Except DecodeError Instr} {i : Instr}
    (ha : a = .ok i → i.place = .command) (hb : b = .ok i → i.place = .command) :
    (if c then a else b) = .ok i → i.place = .command := by
  split
  · exact ha
  · exact hb

theorem place_of_decodeCommand {w : Word} {i : Instr} : decodeCommand w = .ok i → i.place = .command := by
  unfold decodeCommand
  dsimp only
  iterate 13 refine place_of_ite (fun h => by cases h <;> rfl) ?_
  intro h
  cases h
  rfl

/-- What stands in CMD is a command or no instruction (R86). -/
theorem place_of_decode_command {bs : List Byte} {i : Instr} (h : decode .command bs = .ok i) : i.place = .command := by
  match bs with
  | [_, _, _, _] => exact place_of_decodeCommand h
  | [] | [_] | [_, _] | [_, _, _] | _ :: _ :: _ :: _ :: _ :: _ => cases h

theorem singleShot_advances (a : SubAddr) {s t : State} (h : Carried s t) : Advanced s (singleShot a t) :=
  .of_startExchange (h.then_buildFromPayload a.code)

theorem flagCommand_advances (a : SubAddr) (s : State) : Advanced s (flagCommand a s) := by
  unfold flagCommand
  split
  · exact singleShot_advances a (.of_ledger_eq rfl)
  · exact .of_raiseError (.of_ledger_eq rfl)

theorem numericCommand_advances (a : SubAddr) (s : State) : Advanced s (numericCommand a s) := by
  unfold numericCommand
  exact singleShot_advances a (.of_ledger_eq rfl)

/-- What a command does from its acceptance on, each with its own OP (R86). -/
theorem exec_advances {i : Instr} {s t : State} (hi : i.place = .command) (h : exec i s = .next t) :
    ∃ op, Advanced (beginCommand op s) t := by
  cases i with
  | encRaw sub =>
    simp only [exec, execEncRaw] at h
    split at h
    · exact ⟨1, .of_next h (.of_raiseError (.of_ledger_eq rfl))⟩
    · split at h
      · exact ⟨1, .of_next h (.of_raiseError (.of_ledger_eq rfl))⟩
      · exact ⟨1, .of_next h (.of_completeOk (.of_ledger_eq rfl))⟩
  | encNum sub =>
    simp only [exec, execEncNum] at h
    split at h
    · exact ⟨2, .of_next h (.of_raiseError (.of_ledger_eq rfl))⟩
    · exact ⟨2, .of_next h (.of_completeOk (.of_ledger_eq rfl))⟩
  | decode =>
    have hop : isDecoding (beginCommand 3 s).opr := .inl rfl
    simp only [exec, execDecode] at h
    split at h
    case h_1 hd => exact ⟨3, .of_next h (.of_raiseError (carried_of_decodeFrame hop hd))⟩
    case h_2 hd => exact ⟨3, .of_next h (.of_completeOk (carried_of_decodeFrame hop hd))⟩
  | xfer => exact ⟨4, .of_next h (.of_startExchange (.of_ledger_eq rfl))⟩
  | remote => exact ⟨5, .of_next h (flagCommand_advances _ _)⟩
  | output => exact ⟨6, .of_next h (flagCommand_advances _ _)⟩
  | setMaxv => exact ⟨7, .of_next h (numericCommand_advances _ _)⟩
  | setImax => exact ⟨8, .of_next h (numericCommand_advances _ _)⟩
  | status => exact ⟨9, .of_next h (singleShot_advances _ (.of_ledger_eq rfl))⟩
  | ramp =>
    have hlatched : Carried (beginCommand 10 s) (rampLatch (beginCommand 10 s)) := ⟨rfl, rfl, .inr rfl, rfl, .inl rfl⟩
    simp only [exec, execRamp] at h
    split at h
    · exact ⟨10, .of_next h (.of_completeOk hlatched)⟩
    · split at h
      · exact ⟨10, .of_next h (.of_raiseError hlatched)⟩
      · exact ⟨10, .of_next h (.of_rampStep ⟨rfl, rfl, .inr rfl, rfl, .inl rfl⟩)⟩
  | validate buf =>
    simp only [exec, execValidate] at h
    exact ⟨11, .of_next h (.of_completeOk ⟨rfl, rfl, .inl ⟨rfl, rfl⟩, rfl, .inl rfl⟩)⟩
  | unpack buf off wid =>
    simp only [exec, execUnpack] at h
    split at h
    · exact ⟨12, .of_next h ⟨rfl, .inl ⟨rfl, rfl⟩, .inl ⟨rfl, rfl⟩, .inr ⟨rfl, rfl, rfl⟩, .inl rfl⟩⟩
    · exact ⟨12, .of_next h (.of_raiseError (.of_ledger_eq rfl))⟩
  | frameRemoteControl | frameOutputEnable | frameMaxVoltage | frameVoltageSetpoint | frameCurrentLimit | frameStatusQuery
  | frameResponse => cases hi

theorem acceptCommand_advances {w : Word} {s t : State} (h : acceptCommand w s = .next t) :
    ∃ op, Advanced (beginCommand op s) t := by
  unfold acceptCommand at h
  split at h
  case h_1 i hi =>
    obtain ⟨op, hop⟩ := exec_advances (place_of_decode_command hi) h
    exact ⟨op, hop.of_ledger_eq rfl⟩
  case h_2 e _ =>
    unfold illegalCommand at h
    exact ⟨cmdOp w, .of_next h (.of_raiseError (.of_ledger_eq rfl))⟩

/-! ### A whole step -/

theorem thenTick_eq_next {o : Host.Outcome State Fault Refusal} {t : State} (h : thenTick o = .next t) :
    ∃ v, o = .next v ∧ t = v.tick := by
  cases o with
  | next v => exact ⟨v, rfl, (Host.Outcome.next.inj h).symm⟩
  | fault r => cases h
  | refused r => cases h

/-- This cycle's STATUS write and received byte reach nothing but the STATUS bits, the memory and RXLEN, and set no DONE. -/
theorem served_frame (s : State) :
    ∃ status mem rxlen, s.served = { s with status := status, mem := mem, rxlen := rxlen } ∧
      (status.done = true → s.status.done = true) := by
  have hwrite : ∃ status, statusWrite s.pins s = { s with status := status } ∧
      (status.done = true → s.status.done = true) := by
    unfold statusWrite
    split
    · exact ⟨_, rfl, fun h => by simp_all⟩
    · exact ⟨_, rfl, id⟩
  obtain ⟨status, hw, hdone⟩ := hwrite
  rw [State.served, hw]
  obtain ⟨-, hr⟩ | ⟨-, -, -, hr⟩ | ⟨-, -, hr⟩ := receive_cases { s with status := status }
  · exact ⟨_, _, _, hr, hdone⟩
  · exact ⟨_, _, _, hr, hdone⟩
  · exact ⟨_, _, _, hr, hdone⟩

/-- A host write to an idle block other than a CMD write reaches only operands and buffers (R65). -/
theorem idleWrite_frame (p : Pins) (s : State) :
    ∃ regs paylen rxlen mem, idleWrite p s = { s with regs := regs, paylen := paylen, rxlen := rxlen, mem := mem } := by
  unfold idleWrite
  split
  · exact ⟨_, _, _, _, rfl⟩
  · exact ⟨_, _, _, _, writeReg_frame ..⟩

/-- Every step but a reset (R71): a cycle of the running command, the acceptance of one, or an idle cycle without one. -/
theorem step_cases {s t : State} (hrst : s.pins.rst = false) (h : step s = .next t) :
    ∃ v, t = v.tick ∧
      ((s.st ≠ .idle ∧ Advanced s.served v) ∨
       (s.st = .idle ∧ writtenReg s.pins = some .cmd ∧ ∃ op, Advanced (beginCommand op s.served) v) ∨
       (s.st = .idle ∧ v = idleWrite s.pins s.served)) := by
  rw [step_of_not_rst hrst] at h
  obtain ⟨v, hv, rfl⟩ := thenTick_eq_next h
  obtain ⟨status, mem, rxlen, hserved, -⟩ := served_frame s
  have hsame : s.served.st = s.st := by rw [hserved]
  refine ⟨v, rfl, ?_⟩
  by_cases hst : s.st = .idle
  · right
    simp only [blockCycle, hsame, hst, idleCycle] at hv
    split at hv
    case isTrue hcmd => exact .inl ⟨hst, hcmd, acceptCommand_advances hv⟩
    case isFalse => exact .inr ⟨hst, (Host.Outcome.next.inj hv).symm⟩
  · exact .inl ⟨hst, blockCycle_advances (hsame ▸ hst) hv⟩

/-! ### The statements -/

/-- The result registers of `s` and `t` are the same. -/
def sameResults (s t : State) : Prop :=
  t.rampPos = s.rampPos ∧ t.rampCnt = s.rampCnt ∧ t.result = s.result ∧ t.dec = s.dec

/-- Which command has written a result register that differs (R38, R39, R41, R42 to R48). -/
def resultsWrittenByTheirCommands (s t : State) : Prop :=
  (t.rampPos ≠ s.rampPos ∨ t.rampCnt ≠ s.rampCnt → t.opr = 10) ∧
  (t.result ≠ s.result → t.opr = 12 ∧ t.status.done = true ∧ t.status.err = .ok) ∧
  (t.dec ≠ s.dec → t.status.fv = true ∧ isDecoding t.opr)

theorem Advanced.results_written {s x t : State} (h : Advanced x t) (hx : sameResults s x) :
    resultsWrittenByTheirCommands s t := by
  obtain ⟨hpos, hcnt, hresult, hdec⟩ := hx
  refine ⟨fun hne => ?_, fun hne => ?_, fun hne => ?_⟩
  · obtain ⟨hp, hc⟩ | hop := h.ramp
    · exact absurd hne (by simp [hp, hc, hpos, hcnt])
    · exact hop
  · exact h.result.resolve_left (fun e => hne (e.trans hresult))
  · exact h.dec.resolve_left (fun e => hne (e.trans hdec))

theorem results_written_of_same {s t : State} (h : sameResults s t) : resultsWrittenByTheirCommands s t := by
  obtain ⟨hpos, hcnt, hresult, hdec⟩ := h
  exact ⟨fun hne => absurd hne (by simp [hpos, hcnt]), fun hne => absurd hresult hne, fun hne => absurd hdec hne⟩

/-- Settles O54: a command's progress names the command of each change, and nothing else in a step reaches a result. -/
theorem resultsAreWrittenOnlyByTheirCommands : Obligations.ResultsAreWrittenOnlyByTheirCommands := by
  intro s t _ hrst hstep
  show resultsWrittenByTheirCommands s t
  obtain ⟨status, mem, rxlen, hserved, -⟩ := served_frame s
  obtain ⟨v, rfl, hcases⟩ := step_cases hrst hstep
  show resultsWrittenByTheirCommands s v
  rw [hserved] at hcases
  obtain ⟨-, h⟩ | ⟨-, -, op, h⟩ | ⟨-, rfl⟩ := hcases
  · exact h.results_written ⟨rfl, rfl, rfl, rfl⟩
  · exact h.results_written ⟨rfl, rfl, rfl, rfl⟩
  · obtain ⟨regs, paylen, rxlen', mem', e⟩ := idleWrite_frame s.pins { s with status := status, mem := mem, rxlen := rxlen }
    rw [e]
    exact results_written_of_same ⟨rfl, rfl, rfl, rfl⟩

/-- A write of CMD is a write at its word of the map (R23, R26). -/
theorem cmd_word_of_writtenReg {p : Pins} (h : writtenReg p = some .cmd) : p.busWr = true ∧ p.busAddr.toNat / 4 = 1 := by
  unfold writtenReg at h
  split at h
  case isTrue hwr => exact ⟨hwr, word_eq_of_regAt h⟩
  case isFalse => cases h

/-- Settles O55: a command that ends sets DONE in IDLE, one that goes on leaves DONE, and an idle cycle sets none. -/
theorem doneRisesOnlyAtACompletion : Obligations.DoneRisesOnlyAtACompletion := by
  intro s t hrst hstep
  obtain ⟨status, mem, rxlen, hserved, hclear⟩ := served_frame s
  obtain ⟨v, rfl, hcases⟩ := step_cases hrst hstep
  have hirq : v.tick.irq = true ↔ v.tick.status.done = true ∧ v.tick.regs.irqEn = true := by simp [State.irq]
  rw [hserved] at hcases
  obtain ⟨hst, h⟩ | ⟨hst, hcmd, op, h⟩ | ⟨hst, rfl⟩ := hcases
  · obtain ⟨hidle, hdone⟩ | ⟨hbusy, hkeep⟩ := h.done
    · exact ⟨fun _ _ => ⟨hidle, .inl hst⟩, fun _ _ => hdone, hirq⟩
    · refine ⟨fun hlow hhigh => ?_, fun _ hidle => absurd hidle hbusy, hirq⟩
      exact absurd (hclear (hkeep.symm.trans hhigh)) (by simp [hlow])
  · refine ⟨fun _ hhigh => ⟨?_, .inr (cmd_word_of_writtenReg hcmd)⟩, fun hne => absurd hst hne, hirq⟩
    obtain ⟨hidle, -⟩ | ⟨-, hkeep⟩ := h.done
    · exact hidle
    · exact absurd (hkeep.symm.trans hhigh) (by simp)
  · refine ⟨fun hlow hhigh => ?_, fun hne => absurd hst hne, hirq⟩
    obtain ⟨regs, paylen, rxlen', mem', e⟩ := idleWrite_frame s.pins { s with status := status, mem := mem, rxlen := rxlen }
    rw [e] at hhigh
    exact absurd (hclear hhigh) (by simp [hlow])

end Sys2Proof.Machine
end

section
/-! Bytes at rising addresses as little-endian numbers: a field and the reads inside it (R68, R69, R130), and a written buffer
word (R63, R64). -/

namespace Sys2Proof.Machine

/-! ### Little-endian fields (R69, R130) -/

theorem two_pow_byte_succ (n : Nat) : 2 ^ (8 * (n + 1)) = 256 * 2 ^ (8 * n) := by
  rw [Nat.mul_succ, Nat.pow_add, Nat.mul_comm]

theorem leNat_append (bs cs : List Byte) : leNat (bs ++ cs) = leNat bs + 2 ^ (8 * bs.length) * leNat cs := by
  induction bs with
  | nil => simp [leNat]
  | cons b bs ih =>
    rw [List.cons_append, leNat, leNat, ih, List.length_cons, two_pow_byte_succ]
    ring

theorem leNat_lt (bs : List Byte) : leNat bs < 2 ^ (8 * bs.length) := by
  induction bs with
  | nil => simp [leNat]
  | cons b bs ih =>
    rw [leNat, List.length_cons, two_pow_byte_succ]
    have hb := b.isLt
    omega

theorem Memory.readBytes_add (m : Memory) (a n k : Nat) :
    m.readBytes a (n + k) = m.readBytes a n ++ m.readBytes (a + n) k := by
  induction n generalizing a with
  | zero => simp [Memory.readBytes]
  | succ n ih => simp [Memory.readBytes, Nat.succ_add, ih, Nat.add_assoc]

/-- A field of at most four bytes fits the 32 bits it is read in (R130). -/
theorem toNat_leValue (s : State) (b : BufSel) (off : Nat) {w : Nat} (hw : w ≤ 4) :
    (leValue s b off w).toNat = leNat (s.field b off w) := by
  have hlt := leNat_lt (s.field b off w)
  have hpow : 2 ^ (8 * w) ≤ 2 ^ 32 := Nat.pow_le_pow_right (by decide) (by omega)
  rw [State.field, Memory.length_readBytes] at hlt
  exact (BitVec.toNat_ofNat ..).trans (Nat.mod_eq_of_lt (Nat.lt_of_lt_of_le hlt hpow))

/-- A field is its first `n` bytes and, above them, the rest. -/
theorem leNat_field_add (s : State) (b : BufSel) (off n k : Nat) :
    leNat (s.field b off (n + k)) = leNat (s.field b off n) + 2 ^ (8 * n) * leNat (s.field b (off + n) k) := by
  simp only [State.field, Memory.readBytes_add, leNat_append, Memory.length_readBytes, Nat.add_assoc]

theorem leNat_field_lt (s : State) (b : BufSel) (off n : Nat) : leNat (s.field b off n) < 2 ^ (8 * n) := by
  have h := leNat_lt (s.field b off n)
  rwa [State.field, Memory.length_readBytes] at h

/-- Settles O19: a field splits at any byte into a low and a high part, the remainder and the quotient by a power of 2. -/
theorem narrowReadSeesLowBytes : Obligations.NarrowReadSeesLowBytes := by
  intro s b off w w1 k _ hw1 hw _ hk
  rw [toNat_leValue s b off (by omega), toNat_leValue s b off hw, toNat_leValue s b (off + k) (by omega)]
  constructor
  · obtain ⟨n, rfl⟩ := Nat.exists_eq_add_of_le hw1.le
    rw [leNat_field_add, Nat.add_mul_mod_self_left, Nat.mod_eq_of_lt (leNat_field_lt s b off w1)]
  · obtain ⟨n, rfl⟩ := Nat.exists_eq_add_of_le hk.le
    rw [leNat_field_add, Nat.add_mul_div_left _ _ (Nat.two_pow_pos _), Nat.div_eq_of_lt (leNat_field_lt s b off k),
      Nat.zero_add, Nat.add_sub_cancel_left]

/-! ### Written buffer words (R63, R64) -/

/-- At a buffer's addresses stands a register that is written as a buffer word. -/
theorem regAt_bufferWord {base size k : Nat} (hb : (base, size) ∈ buffers) (hk : 4 * k < size) {a : BitVec 8}
    (ha : a.toNat / 4 = base / 4 + k) :
    ∃ r, regAt a = some r ∧ r ≠ .cmd ∧ r ≠ .status ∧ ∀ v s, writeReg r v s = writeBufWord base k v s := by
  simp only [buffers, List.mem_cons, Prod.mk.injEq, List.not_mem_nil, or_false] at hb
  obtain ⟨rfl, rfl⟩ | ⟨rfl, rfl⟩ | ⟨rfl, rfl⟩ := hb
  · refine ⟨.txbuf k, ?_, by simp, by simp, fun _ _ => rfl⟩
    unfold regAt
    rw [if_neg (by omega), if_pos (by omega), show a.toNat / 4 - 32 = k by omega]
  · refine ⟨.rxbuf k, ?_, by simp, by simp, fun _ _ => rfl⟩
    unfold regAt
    rw [if_neg (by omega), if_neg (by omega), if_pos (by omega), show a.toNat / 4 - 40 = k by omega]
  · refine ⟨.paybuf k, ?_, by simp, by simp, fun _ _ => rfl⟩
    unfold regAt
    rw [if_neg (by omega), if_neg (by omega), if_neg (by omega), if_pos (by omega), show a.toNat / 4 - 48 = k by omega]

theorem isBufferByte_of_lt {base size i : Nat} (hb : (base, size) ∈ buffers) (hi : i < size) :
    isBufferByte (base + i) = true := by
  rw [isBufferByte_iff]
  simp only [buffers, List.mem_cons, Prod.mk.injEq, List.not_mem_nil, or_false] at hb
  omega

theorem getD_bytesOfWord (v : Word) {j : Nat} (hj : j < 4) : (bytesOfWord v).getD j 0 = v.extractLsb' (8 * j) 8 := by
  interval_cases j <;> rfl

/-- A byte of the written word, where it exists (R63). -/
theorem read_writeBufWord_inside {base size k j : Nat} (hb : (base, size) ∈ buffers) (hj : j < 4) (hi : 4 * k + j < size)
    (v : Word) (s : State) : (writeBufWord base k v s).mem.read (base + 4 * k + j) = v.extractLsb' (8 * j) 8 := by
  have hexists : isBufferByte (base + 4 * k + j) = true := by
    rw [Nat.add_assoc]
    exact isBufferByte_of_lt hb hi
  rw [writeBufWord_mem, Memory.read_writeBytes_inside _ _ (by exact hj) hexists, getD_bytesOfWord v hj]

theorem read_writeBufWord_outside {base k a : Nat} (ha : a < base + 4 * k ∨ base + 4 * k + 4 ≤ a) (v : Word) (s : State) :
    (writeBufWord base k v s).mem.read a = s.mem.read a := by
  rw [writeBufWord_mem]
  exact Memory.read_writeBytes_outside _ _ ha

/-- Words with the same four bytes are the same. -/
theorem eq_of_extractLsb'_eq {v w : Word} (h : ∀ j, j < 4 → v.extractLsb' (8 * j) 8 = w.extractLsb' (8 * j) 8) : v = w := by
  apply BitVec.eq_of_getLsbD_eq
  intro i hi
  have hbyte := congrArg (BitVec.getLsbD · (i % 8)) (h (i / 8) (by omega))
  simpa [BitVec.getLsbD_extractLsb', Nat.mod_lt, Nat.div_add_mod, -BitVec.getLsbD_eq_getElem] using hbyte

/-- Byte `j` of a word of which only the first `n` bytes are kept. -/
theorem extractLsb'_keepBytes (v : Word) {n j : Nat} (hj : j < 4) :
    BitVec.extractLsb' (8 * j) 8 ((v.setWidth (8 * n)).setWidth 32) = if j < n then v.extractLsb' (8 * j) 8 else 0 := by
  apply BitVec.eq_of_getLsbD_eq
  intro i hi
  by_cases hn : j < n
  · have hbit : 8 * j + i < 8 * n ∧ 8 * j + i < 32 := by omega
    simp [hn, hi, hbit, BitVec.getLsbD_extractLsb', -BitVec.getLsbD_eq_getElem]
  · have hbit : ¬ 8 * j + i < 8 * n := by omega
    simp [hn, hbit, BitVec.getLsbD_extractLsb', -BitVec.getLsbD_eq_getElem]

/-- A written buffer word reads back, but for the bytes that do not exist (R63). -/
theorem toNat_bufWord_writeBufWord {base size k : Nat} (hb : (base, size) ∈ buffers) (hk : 4 * k < size) (v : Word)
    (s : State) : (bufWord (writeBufWord base k v s) base k).toNat = v.toNat % 2 ^ (8 * min 4 (size - 4 * k)) := by
  have hkept : bufWord (writeBufWord base k v s) base k = (v.setWidth (8 * min 4 (size - 4 * k))).setWidth 32 := by
    apply eq_of_extractLsb'_eq
    intro j hj
    rw [extractLsb'_bufWord _ _ _ hj, extractLsb'_keepBytes v hj]
    by_cases hi : 4 * k + j < size
    · rw [if_pos (by omega), read_writeBufWord_inside hb hj hi]
    · rw [if_neg (by omega), Nat.add_assoc]
      exact read_past_buffer _ hb (by omega) (by omega)
  rw [hkept, toNat_setWidth_setWidth v (by omega)]

/-- Settles O45: the step is the write of one buffer word (but for a stray byte), whose bytes the rules above give. -/
theorem bufferWordIsLittleEndian : Obligations.BufferWordIsLittleEndian := by
  intro s t base size k hb hk hinv hst hrst hwr hword hstep
  obtain ⟨r, hr, hcmd, hstatus, hwrite⟩ := regAt_bufferWord hb hk hword
  have hwritten : writtenReg s.pins = some r := by rw [writtenReg, if_pos hwr, hr]
  rw [step_of_idle_write hinv.engine hst hrst hwritten hcmd hstatus, hwrite] at hstep
  cases hstep
  refine ⟨fun j hj hi => read_writeBufWord_inside hb hj hi .., fun a ha => read_writeBufWord_outside ha .., fun a ha => ?_⟩
  rw [busRead_tick, busRead_of_bufferWord _ hb hk ha, toNat_bufWord_writeBufWord hb hk]

end Sys2Proof.Machine
end

section
/-! Other inputs and a mark in BUSY_WR: every operation of the block commutes with a change of the coming inputs that keeps the
link's ports, and with a mark in BUSY_WR, of which none but the host bus takes notice (R55, R62, R66). -/

namespace Sys2Proof.Machine

/-! ### Other inputs and a mark laid over a state -/

/-- The state with other coming inputs, and with BUSY_WR set where `mark` holds. -/
def State.overlay (script : List Pins) (mark : Bool) (s : State) : State :=
  { s with script := script, status := { s.status with busyWr := s.status.busyWr || mark } }

/-- The link does the same in two cycles (R22). -/
structure SameLink (p q : Pins) : Prop where
  txReady : q.txReady = p.txReady
  rxData : q.rxData = p.rxData
  rxValid : q.rxValid = p.rxValid
  lnkErr : q.lnkErr = p.lnkErr

section
variable {script : List Pins} {mark : Bool} {s : State}

@[simp] theorem State.overlay_regs : (s.overlay script mark).regs = s.regs := rfl
@[simp] theorem State.overlay_st : (s.overlay script mark).st = s.st := rfl
@[simp] theorem State.overlay_opr : (s.overlay script mark).opr = s.opr := rfl
@[simp] theorem State.overlay_ramp : (s.overlay script mark).ramp = s.ramp := rfl

/-! ### The shared operations -/

theorem decodeFrame_eq (s : State) :
    decodeFrame s =
      if s.rxlen.toNat ≠ 26 then (unreadState s, some .len)
      else if s.rxByte 0 ≠ 0xAA then (judgedState s, some .sync)
      else if s.regs.chkEn = true ∧ (checkVerdict s .rx).ok = false then (judgedState s, some .chk)
      else (goodState s, none) := rfl

theorem decodeFrame_overlay :
    decodeFrame (s.overlay script mark) = Prod.map (State.overlay script mark) id (decodeFrame s) := by
  rw [decodeFrame_eq, decodeFrame_eq, apply_ite (Prod.map _ id), apply_ite (Prod.map _ id), apply_ite (Prod.map _ id)]
  rfl

theorem singleShotAnswered_overlay (a : SubAddr) :
    singleShotAnswered a (s.overlay script mark) = (singleShotAnswered a s).overlay script mark := by
  simp only [singleShotAnswered, decodeFrame_overlay]
  rcases decodeFrame s with ⟨t, _ | d⟩
  · dsimp only
    rw [apply_ite (State.overlay script mark)]
    rfl
  · rfl

theorem startExchange_overlay : startExchange (s.overlay script mark) = (startExchange s).overlay script mark := by
  dsimp only [startExchange, State.overlay]

theorem buildNumeric_overlay (sub : Byte) (v : Word) :
    buildNumeric sub v (s.overlay script mark) = (buildNumeric sub v s).overlay script mark := rfl

theorem aimed_overlay : aimed (s.overlay script mark) = (aimed s).overlay script mark := rfl

theorem raiseError_overlay (c : ErrClass) (d : Detail) (sub : Byte) :
    raiseError c d sub (s.overlay script mark) = (raiseError c d sub s).overlay script mark := rfl

theorem rampStep_overlay : rampStep (s.overlay script mark) = (rampStep s).overlay script mark := by
  obtain ⟨h, e⟩ | ⟨h, e⟩ := rampStep_cases s
  · obtain ⟨-, e'⟩ | ⟨h', -⟩ := rampStep_cases (s.overlay script mark)
    · rw [e, e', aimed_overlay, buildNumeric_overlay, startExchange_overlay, State.overlay_ramp]
    · exact absurd (h.symm.trans h') (by decide)
  · obtain ⟨h', -⟩ | ⟨-, e'⟩ := rampStep_cases (s.overlay script mark)
    · exact absurd (h.symm.trans h') (by decide)
    · rw [e, e', aimed_overlay, raiseError_overlay]

theorem rampContinue_overlay : rampContinue (s.overlay script mark) = (rampContinue s).overlay script mark := by
  rw [rampContinue, rampContinue, rampStep_overlay, apply_ite (State.overlay script mark)]
  rfl

theorem rampAnswered_overlay : rampAnswered (s.overlay script mark) = (rampAnswered s).overlay script mark := by
  simp only [rampAnswered, decodeFrame_overlay]
  rcases decodeFrame s with ⟨t, _ | d⟩
  · dsimp only
    rw [apply_ite (State.overlay script mark), apply_ite (State.overlay script mark), ← rampContinue_overlay]
    rfl
  · rfl

/-! ### The end of an exchange and the frames -/

theorem exchangeOk_overlay : exchangeOk (s.overlay script mark) = (exchangeOk s).overlay script mark := by
  simp only [exchangeOk, State.overlay_opr]
  rcases singleShotSub s.opr with _ | a
  · dsimp only
    rw [apply_ite (State.overlay script mark), ← rampAnswered_overlay]
    rfl
  · exact singleShotAnswered_overlay (s := { s with rxw := false }) a

theorem exchangeFail_overlay (d : Detail) : exchangeFail d (s.overlay script mark) = (exchangeFail d s).overlay script mark := rfl

theorem putHeader_overlay (base : Nat) (b0 b1 b2 : Byte) :
    putHeader base b0 b1 b2 (s.overlay script mark) = (putHeader base b0 b1 b2 s).overlay script mark := rfl

theorem byteTaken_overlay : byteTaken (s.overlay script mark) = (byteTaken s).overlay script mark := rfl

theorem takeResponse_overlay (dev sub : Byte) :
    takeResponse dev sub (s.overlay script mark) = (takeResponse dev sub s).overlay script mark := by
  rw [takeResponse, takeResponse, putHeader_overlay, exchangeOk_overlay, apply_ite (State.overlay script mark)]
  rfl

theorem waitCycle_overlay : waitCycle (s.overlay script mark) = (waitCycle s).overlay script mark := by
  rw [waitCycle, waitCycle, apply_ite (State.overlay script mark)]
  rfl

theorem settleCycle_overlay : settleCycle (s.overlay script mark) = (settleCycle s).overlay script mark := by
  rw [settleCycle, settleCycle, apply_ite (State.overlay script mark), ← rampContinue_overlay]
  rfl

theorem txCycle_overlay (h : SameLink s.pins (s.overlay script mark).pins) :
    txCycle (s.overlay script mark) = (txCycle s).overlay script mark := by
  have hsent : (if s.pins.txReady then byteTaken (s.overlay script mark) else s.overlay script mark) =
      State.overlay script mark (if s.pins.txReady then byteTaken s else s) := by
    rw [byteTaken_overlay, apply_ite (State.overlay script mark)]
  simp only [byteTaken] at hsent
  simp only [txCycle, h.txReady, h.lnkErr, hsent]
  generalize (if s.pins.txReady = true then _ else s) = t
  rw [apply_ite (State.overlay script mark), apply_ite (State.overlay script mark), apply_ite (State.overlay script mark),
    ← exchangeOk_overlay]
  rfl

theorem receive_overlay (h : SameLink s.pins (s.overlay script mark).pins) :
    receive (s.overlay script mark) = (receive s).overlay script mark := by
  rw [receive, receive, h.rxValid, h.rxData, apply_ite (State.overlay script mark), apply_ite (State.overlay script mark)]
  rfl

/-! ### The commands -/

theorem buildFromPayload_overlay (sub : Byte) :
    buildFromPayload sub (s.overlay script mark) = (buildFromPayload sub s).overlay script mark := rfl

theorem beginCommand_overlay (op : BitVec 4) :
    beginCommand op (s.overlay script mark) = (beginCommand op s).overlay script mark := rfl

theorem setPayload_overlay (pay : List Byte) :
    setPayload pay (s.overlay script mark) = (setPayload pay s).overlay script mark := rfl

theorem singleShot_overlay (a : SubAddr) : singleShot a (s.overlay script mark) = (singleShot a s).overlay script mark := by
  rw [singleShot, buildFromPayload_overlay, startExchange_overlay, singleShot]

theorem flagCommand_overlay (a : SubAddr) : flagCommand a (s.overlay script mark) = (flagCommand a s).overlay script mark := by
  simp only [flagCommand, State.overlay_regs]
  rcases flagPayload s.regs.arg with _ | pay
  · rfl
  · exact singleShot_overlay (s := setPayload pay s) a

theorem numericCommand_overlay (a : SubAddr) :
    numericCommand a (s.overlay script mark) = (numericCommand a s).overlay script mark :=
  singleShot_overlay (s := setPayload (numericPayload s.regs.arg) s) a

theorem transmitFrame_overlay (h : SameLink s.pins (s.overlay script mark).pins) (a : SubAddr) (dev : Byte) :
    transmitFrame a dev (s.overlay script mark) = (transmitFrame a dev s).overlay script mark := by
  have hcycle := txCycle_overlay (mark := mark) (s := putHeader Config.txBase Config.sync dev a.code s) h
  rw [transmitFrame, transmitFrame, putHeader_overlay, hcycle, apply_ite (State.overlay script mark)]
  rfl

theorem writeReg_overlay (r : Reg) (v : Word) :
    writeReg r v (s.overlay script mark) = (writeReg r v s).overlay script mark := by
  cases r <;> rfl

end

/-- An outcome whose next state has other coming inputs and a mark. -/
def overlayNext (script : List Pins) (mark : Bool) : Host.Outcome State Fault Refusal → Host.Outcome State Fault Refusal
  | .next s => .next (s.overlay script mark)
  | .fault r => .fault r
  | .refused r => .refused r

section
variable {script : List Pins} {mark : Bool} {s : State}

/-- The meaning of an instruction sees nothing of the inputs but the link, and nothing of BUSY_WR. -/
theorem exec_overlay (h : SameLink s.pins (s.overlay script mark).pins) (i : Instr) :
    exec i (s.overlay script mark) = overlayNext script mark (exec i s) := by
  have next : ∀ {t u : State}, t = u.overlay script mark →
      (.next t : Host.Outcome State Fault Refusal) = overlayNext script mark (.next u) := fun e => e ▸ rfl
  cases i with
  | encRaw sub =>
    rw [exec, exec, execEncRaw, execEncRaw, apply_ite (overlayNext script mark), apply_ite (overlayNext script mark)]
    rfl
  | encNum sub =>
    rw [exec, exec, execEncNum, execEncNum, apply_ite (overlayNext script mark)]
    rfl
  | decode =>
    simp only [exec, execDecode, beginCommand_overlay, decodeFrame_overlay]
    rcases decodeFrame (beginCommand 3 s) with ⟨t, _ | d⟩
    · rfl
    · rfl
  | xfer => exact next (by rw [beginCommand_overlay, startExchange_overlay])
  | remote => exact next (by rw [beginCommand_overlay, flagCommand_overlay])
  | output => exact next (by rw [beginCommand_overlay, flagCommand_overlay])
  | setMaxv => exact next (by rw [beginCommand_overlay, numericCommand_overlay])
  | setImax => exact next (by rw [beginCommand_overlay, numericCommand_overlay])
  | status => exact next (by rw [beginCommand_overlay, setPayload_overlay, singleShot_overlay])
  | ramp =>
    rw [exec, exec, execRamp, execRamp, apply_ite (overlayNext script mark), apply_ite (overlayNext script mark)]
    simp only [overlayNext, ← rampStep_overlay]
    rfl
  | validate buf => rfl
  | unpack buf off wid =>
    rw [exec, exec, execUnpack, execUnpack, apply_ite (overlayNext script mark)]
    rfl
  | frameRemoteControl dev => exact next (transmitFrame_overlay h _ dev)
  | frameOutputEnable dev => exact next (transmitFrame_overlay h _ dev)
  | frameMaxVoltage dev => exact next (transmitFrame_overlay h _ dev)
  | frameVoltageSetpoint dev => exact next (transmitFrame_overlay h _ dev)
  | frameCurrentLimit dev => exact next (transmitFrame_overlay h _ dev)
  | frameStatusQuery dev => exact next (transmitFrame_overlay h _ dev)
  | frameResponse dev sub => exact next (takeResponse_overlay dev sub)

/-! ### The cycles -/

/-- The block's own cycle without the host: nothing in IDLE, and in TX, RX and SETTLE the cycle of the running command. -/
def engineCycle (s : State) : Host.Outcome State Fault Refusal :=
  match s.st with
  | .idle => .next s
  | .tx => sendCycle s
  | .rx => receiveCycle s
  | .settle => .next (settleCycle s)

theorem blockCycle_of_idle (p : Pins) (hst : s.st = .idle) : blockCycle p s = idleCycle p s := by rw [blockCycle, hst]

theorem blockCycle_of_busy (p : Pins) (hst : s.st ≠ .idle) : blockCycle p s = engineCycle (busyWrite p s) := by
  obtain ⟨b, hb⟩ := busyWrite_frame p s
  have hsame : (busyWrite p s).st = s.st := by rw [hb]
  rw [blockCycle, engineCycle, hsame]
  cases hs : s.st with
  | idle => exact absurd hs hst
  | tx | rx | settle => rfl

theorem sendCycle_overlay (h : SameLink s.pins (s.overlay script mark).pins) :
    sendCycle (s.overlay script mark) = overlayNext script mark (sendCycle s) := by
  have hframe : (s.overlay script mark).txFrame = s.txFrame := rfl
  rw [sendCycle, sendCycle, hframe]
  rcases decode .transmit s.txFrame with e | i
  · exact congrArg _ (txCycle_overlay h)
  · exact exec_overlay h i

theorem answerCycle_overlay (h : SameLink s.pins (s.overlay script mark).pins) :
    answerCycle (s.overlay script mark) = overlayNext script mark (answerCycle s) := by
  have hframe : (s.overlay script mark).rxFrame = s.rxFrame := rfl
  rw [answerCycle, answerCycle, hframe]
  rcases decode .receive s.rxFrame with e | i
  · exact congrArg _ exchangeOk_overlay
  · exact exec_overlay h i

theorem receiveCycle_overlay (h : SameLink s.pins (s.overlay script mark).pins) :
    receiveCycle (s.overlay script mark) = overlayNext script mark (receiveCycle s) := by
  rw [receiveCycle, receiveCycle, h.lnkErr, answerCycle_overlay h, waitCycle_overlay, exchangeFail_overlay,
    apply_ite (overlayNext script mark), apply_ite (overlayNext script mark)]
  rfl

theorem engineCycle_overlay (h : SameLink s.pins (s.overlay script mark).pins) :
    engineCycle (s.overlay script mark) = overlayNext script mark (engineCycle s) := by
  rw [engineCycle, engineCycle, State.overlay_st]
  cases s.st with
  | idle => rfl
  | tx => exact sendCycle_overlay h
  | rx => exact receiveCycle_overlay h
  | settle => exact congrArg _ settleCycle_overlay

theorem acceptCommand_overlay (h : SameLink s.pins (s.overlay script mark).pins) (w : Word) :
    acceptCommand w (s.overlay script mark) = overlayNext script mark (acceptCommand w s) := by
  rw [acceptCommand, acceptCommand]
  rcases decode .command (bytesOfWord w) with e | i
  · rfl
  · exact exec_overlay (s := { s with cmd := w }) h i

theorem idleWrite_overlay (p : Pins) : idleWrite p (s.overlay script mark) = (idleWrite p s).overlay script mark := by
  rw [idleWrite, idleWrite]
  rcases writtenReg p with _ | r
  · rfl
  · exact writeReg_overlay r p.busWdata

theorem busyWrite_overlay (p : Pins) : busyWrite p (s.overlay script mark) = (busyWrite p s).overlay script mark := by
  unfold busyWrite
  split
  · rfl
  · rfl
  · rfl

/-- The busy rule lays a mark over the state (R66). -/
theorem busyWrite_eq_overlay {p : Pins} (h : writtenReg p ≠ some .status) :
    busyWrite p s = s.overlay s.script (writtenReg p).isSome := by
  unfold busyWrite
  split
  case h_1 e => simp [State.overlay, e]
  case h_2 e => exact absurd e h
  case h_3 e => simp [State.overlay, e]

theorem statusWrite_overlay (p : Pins) :
    statusWrite p (s.overlay script false) = (statusWrite p s).overlay script false := by
  rw [statusWrite, statusWrite, apply_ite (State.overlay script false)]
  simp [State.overlay, clearStatus]

theorem idleCycle_overlay (h : SameLink s.pins (s.overlay script mark).pins) (p : Pins) :
    idleCycle p (s.overlay script mark) = overlayNext script mark (idleCycle p s) := by
  rw [idleCycle, idleCycle, acceptCommand_overlay h, idleWrite_overlay, apply_ite (overlayNext script mark)]
  rfl

theorem busyWrite_pins (p : Pins) (s : State) : (busyWrite p s).pins = s.pins := by
  obtain ⟨b, hb⟩ := busyWrite_frame p s
  rw [hb]
  rfl

theorem blockCycle_overlay (h : SameLink s.pins (s.overlay script mark).pins) (p : Pins) :
    blockCycle p (s.overlay script mark) = overlayNext script mark (blockCycle p s) := by
  by_cases hst : s.st = .idle
  · rw [blockCycle_of_idle p hst, blockCycle_of_idle (s := s.overlay script mark) p hst, idleCycle_overlay h]
  · have hlink : SameLink (busyWrite p s).pins ((busyWrite p s).overlay script mark).pins := by
      rw [← busyWrite_overlay, busyWrite_pins, busyWrite_pins]
      exact h
    rw [blockCycle_of_busy p hst, blockCycle_of_busy (s := s.overlay script mark) p hst, busyWrite_overlay,
      engineCycle_overlay hlink]

theorem receive_keeps (s : State) :
    (receive s).st = s.st ∧ (receive s).script = s.script ∧ (receive s).pins = s.pins := by
  obtain ⟨-, e⟩ | ⟨-, -, -, e⟩ | ⟨-, -, e⟩ := receive_cases s
  · rw [e]
    exact ⟨rfl, rfl, rfl⟩
  · rw [e]
    exact ⟨rfl, rfl, rfl⟩
  · rw [e]
    exact ⟨rfl, rfl, rfl⟩

theorem SameLink.receive (h : SameLink s.pins (s.overlay script mark).pins) :
    SameLink (Machine.receive s).pins ((Machine.receive s).overlay script mark).pins := by
  obtain ⟨-, -, hpins⟩ := receive_keeps s
  obtain ⟨-, -, hpins'⟩ := receive_keeps (s.overlay script mark)
  rwa [← receive_overlay h, hpins, hpins']

theorem statusWrite_inputs (p : Pins) (s : State) : (statusWrite p s).script = s.script ∧ (statusWrite p s).pins = s.pins := by
  unfold statusWrite
  split
  · exact ⟨rfl, rfl⟩
  · exact ⟨rfl, rfl⟩

theorem served_inputs (s : State) : s.served.script = s.script ∧ s.served.pins = s.pins := by
  obtain ⟨_, _, _, e, -⟩ := served_frame s
  rw [e]
  exact ⟨rfl, rfl⟩

end

end Sys2Proof.Machine
end

section
/-! What a step sees of the host's access (R62, R65, R66, R67): a cycle with a write is told apart from the same cycle without it
only where the write is taken. -/

namespace Sys2Proof.Machine

/-! ### A whole cycle -/

theorem State.overlay_self (s : State) : s.overlay s.script false = s := by simp [State.overlay]

theorem State.overlay_false (script : List Pins) (s : State) : s.overlay script false = { s with script := script } := by
  simp [State.overlay]

theorem pins_of_script {s : State} {p : Pins} {rest : List Pins} (h : s.script = p :: rest) : s.pins = p := by
  rw [State.pins, h]

/-- Once a cycle is over its inputs are gone. -/
theorem thenTick_overlayNext (p q : Pins) (rest : List Pins) (mark : Bool) (o : Host.Outcome State Fault Refusal) :
    thenTick (overlayNext (p :: rest) mark o) = thenTick (overlayNext (q :: rest) mark o) := by
  cases o with
  | next _ | fault _ | refused _ => rfl

/-- What the received byte and the block's own cycle make of other inputs with the same link. -/
theorem engineCycle_receive_overlay {script : List Pins} {s : State} (h : SameLink s.pins (s.overlay script false).pins) :
    engineCycle (receive (s.overlay script false)) = overlayNext script false (engineCycle (receive s)) := by
  rw [receive_overlay h, engineCycle_overlay h.receive]

theorem SameLink.overlay_self (s : State) : SameLink s.pins (s.overlay s.script false).pins := by
  rw [State.overlay_self]
  exact ⟨rfl, rfl, rfl, rfl⟩

theorem overlayNext_engineCycle_receive (s : State) :
    overlayNext s.script false (engineCycle (receive s)) = engineCycle (receive s) := by
  rw [← engineCycle_receive_overlay (.overlay_self s), State.overlay_self]

theorem overlayNext_blockCycle (p : Pins) (s : State) : overlayNext s.script false (blockCycle p s) = blockCycle p s := by
  rw [← blockCycle_overlay (.overlay_self s), State.overlay_self]

/-- A cycle in which the host writes nothing. -/
theorem step_of_no_write {s : State} (hrst : s.pins.rst = false) (hw : writtenReg s.pins = none) :
    step s = thenTick (engineCycle (receive s)) := by
  have hserved : s.served = receive s := by rw [State.served, statusWrite_of_ne (by simp [hw])]
  rw [step_of_not_rst hrst, hserved]
  by_cases hst : (receive s).st = .idle
  · simp [blockCycle_of_idle _ hst, engineCycle, hst, idleCycle, idleWrite, hw]
  · rw [blockCycle_of_busy _ hst, busyWrite, hw]

/-- The same cycle without the host's write. -/
theorem step_unwritten {s : State} {p : Pins} {rest : List Pins} (hs : s.script = p :: rest) (hrst : p.rst = false) :
    step { s with script := { p with busWr := false } :: rest } =
      thenTick (overlayNext s.script false (engineCycle (receive s))) := by
  have hlink : SameLink s.pins (s.overlay ({ p with busWr := false } :: rest) false).pins := by
    rw [pins_of_script hs]
    exact ⟨rfl, rfl, rfl, rfl⟩
  rw [step_of_no_write (by exact hrst) (by rfl), ← State.overlay_false, engineCycle_receive_overlay hlink, hs,
    thenTick_overlayNext]

theorem step_of_rst {s : State} (h : s.pins.rst = true) : step s = .next (resetEdge s).tick := by
  simp [step, cycleEdge, h, thenTick]

/-- Inputs with the same STATUS write and the same received byte are served alike. -/
theorem served_overlay {s : State} {q : Pins} (rest : List Pins) (hlink : SameLink s.pins q)
    (hreg : writtenReg q = writtenReg s.pins) (hdata : q.busWdata = s.pins.busWdata) :
    (s.overlay (q :: rest) false).served = s.served.overlay (q :: rest) false := by
  have hstatus : statusWrite q (s.overlay (q :: rest) false) = (statusWrite s.pins s).overlay (q :: rest) false := by
    rw [← statusWrite_overlay, statusWrite, statusWrite, hreg, hdata]
  have hlink' : SameLink (statusWrite s.pins s).pins ((statusWrite s.pins s).overlay (q :: rest) false).pins := by
    rw [(statusWrite_inputs _ s).2]
    exact hlink
  rw [State.served, State.served, ← receive_overlay hlink', ← hstatus]
  rfl

/-- Of its inputs a step sees the reset, the link, and the register and the value that the host writes. -/
theorem step_of_same_access {s : State} {p q : Pins} {rest : List Pins} (hs : s.script = p :: rest) (hrst : q.rst = p.rst)
    (hlink : SameLink p q) (hreg : writtenReg q = writtenReg p) (hdata : q.busWdata = p.busWdata) :
    step { s with script := q :: rest } = step s := by
  have hp := pins_of_script hs
  cases hr : p.rst with
  | true =>
    rw [step_of_rst (by exact hrst.trans hr), step_of_rst (by rwa [hp])]
    simp [resetEdge, State.tick, hs]
  | false =>
    have hblock : ∀ v, blockCycle q v = blockCycle p v := fun v => by
      simp only [blockCycle, idleCycle, idleWrite, busyWrite, hreg, hdata]
    obtain ⟨hscript, hpins⟩ := served_inputs s
    have hlink' : SameLink s.served.pins (s.served.overlay (q :: rest) false).pins := by
      rw [hpins, hp]
      exact hlink
    calc step { s with script := q :: rest }
      _ = thenTick (blockCycle q (s.overlay (q :: rest) false).served) := by
        rw [← State.overlay_false, step_of_not_rst (by exact hrst.trans hr)]
        rfl
      _ = thenTick (overlayNext (q :: rest) false (blockCycle p s.served)) := by
        rw [served_overlay rest (hp ▸ hlink) (hp ▸ hreg) (hp ▸ hdata), hblock, blockCycle_overlay hlink']
      _ = thenTick (overlayNext s.served.script false (blockCycle p s.served)) := by
        rw [hscript, hs, thenTick_overlayNext]
      _ = step s := by
        rw [overlayNext_blockCycle, step_of_not_rst (by rwa [hp]), hp]

/-! ### The statements -/

/-- The read-only registers of the map (R23, R65). -/
def readOnlyRegs : List Reg :=
  [.id, .rampPos, .rampCnt, .errInfo, .result, .decHdr, .decFlags, .curMeas, .voltMeas, .imax, .vmax, .vset]

/-- Settles O48: the mark is laid over the state before the block's own cycle, which keeps it and sees nothing else of the
write. -/
theorem busyWriteIsIgnoredAndMarked : Obligations.BusyWriteIsIgnoredAndMarked := by
  intro s t u p rest hst hs hrst hwr hword ht hu
  have hp := pins_of_script hs
  have hreg : writtenReg p = regAt p.busAddr := if_pos hwr
  have hnot : writtenReg p ≠ some .status := fun h => hword (word_eq_of_regAt (hreg ▸ h))
  have hserved : s.served = receive s := by rw [State.served, hp, statusWrite_of_ne hnot]
  obtain ⟨hst', hscript, hpins⟩ := receive_keeps s
  have hlink : SameLink (receive s).pins ((receive s).overlay (p :: rest) (regAt p.busAddr).isSome).pins := by
    rw [hpins, hp]
    exact ⟨rfl, rfl, rfl, rfl⟩
  rw [step_of_not_rst (by rwa [hp]), hserved, hp, blockCycle_of_busy p (by rwa [hst']), busyWrite_eq_overlay hnot, hscript,
    hs, hreg, engineCycle_overlay hlink] at ht
  rw [step_unwritten hs hrst, hs] at hu
  obtain ⟨_, hy, rfl⟩ := thenTick_eq_next ht
  obtain ⟨_, hy', rfl⟩ := thenTick_eq_next hu
  cases hcycle : engineCycle (receive s) with
  | next y =>
    rw [hcycle] at hy hy'
    cases hy
    cases hy'
    simp [State.overlay, State.tick]
  | fault r => rw [hcycle] at hy; cases hy
  | refused r => rw [hcycle] at hy; cases hy

/-- Settles O49: a STATUS write is taken before the received byte and the block's own cycle, and stops at that. -/
theorem statusWriteClearsThenSets : Obligations.StatusWriteClearsThenSets := by
  intro s p rest hs hrst hwr hword
  have hreg : writtenReg s.pins = some .status := by
    rw [pins_of_script hs, writtenReg, if_pos hwr]
    exact regAt_eq_of_word_eq (b := 8) hword
  have hserved : s.served = receive (clearStatus p.busWdata s) := by
    rw [State.served, statusWrite, if_pos hreg, pins_of_script hs]
  have hcycle : ∀ v : State, blockCycle s.pins v = engineCycle v := fun v => by
    by_cases hst : v.st = .idle
    · simp [blockCycle_of_idle _ hst, engineCycle, hst, idleCycle, idleWrite, hreg, writeReg]
    · rw [blockCycle_of_busy _ hst, busyWrite, hreg]
  have hunwritten := step_unwritten (s := clearStatus p.busWdata s) hs hrst
  rw [overlayNext_engineCycle_receive] at hunwritten
  rw [step_of_not_rst (by rwa [pins_of_script hs]), hserved, hcycle]
  exact hunwritten.symm

/-- A read-only register and a reserved address keep no written value (R61, R65). -/
theorem idleWrite_ignored {p : Pins} (h : writtenReg p = none ∨ ∃ r ∈ readOnlyRegs, writtenReg p = some r) (s : State) :
    writtenReg p ≠ some .cmd ∧ writtenReg p ≠ some .status ∧ idleWrite p s = s := by
  obtain hnone | ⟨r, hr, hsome⟩ := h
  · simp [idleWrite, hnone]
  · have every : ∀ r ∈ readOnlyRegs, r ≠ .cmd ∧ r ≠ .status := by decide
    have hkeep : writeReg r p.busWdata s = s := by
      cases r with
      | cfg | devAddr | arg | paylen | rxlen | rxTimeout | rampFrom | rampTo | rampStep | rampOffset | settle | txbuf | rxbuf
      | paybuf => simp [readOnlyRegs] at hr
      | _ => rfl
    simp [idleWrite, hsome, every r hr, hkeep]

/-- Settles O50: nothing takes such a write, so the cycle is that of an idle block on which the host writes nothing. -/
theorem readOnlyAndReservedIgnoreWrites : Obligations.ReadOnlyAndReservedIgnoreWrites := by
  intro s p rest hst hs hrst hwr hignored
  have hp := pins_of_script hs
  have hreg : writtenReg p = regAt p.busAddr := if_pos hwr
  obtain ⟨hcmd, hstatus, hkeep⟩ := idleWrite_ignored (by rwa [hreg]) (receive s)
  obtain ⟨hst', -⟩ := receive_keeps s
  have hidle : (receive s).st = .idle := hst'.trans hst
  rw [step_unwritten hs hrst, overlayNext_engineCycle_receive, step_of_not_rst (by rwa [hp]), State.served, hp,
    statusWrite_of_ne hstatus, blockCycle_of_idle p hidle, idleCycle, if_neg hcmd, hkeep, engineCycle, hidle]

/-- Settles O51: a read strobe, and an address without a write, are no part of what a step sees. -/
theorem readsHaveNoEffect : Obligations.ReadsHaveNoEffect := by
  intro s p rest rd addr hs
  refine ⟨step_of_same_access hs rfl ⟨rfl, rfl, rfl, rfl⟩ rfl rfl, fun hwr => ?_⟩
  exact step_of_same_access hs rfl ⟨rfl, rfl, rfl, rfl⟩ (by simp [writtenReg, hwr]) rfl

end Sys2Proof.Machine
end

section
/-! The operands of a busy block (R20, R66, R243): one lemma per operation of a running command says that it keeps them, or starts
a ramp step's exchange. -/

namespace Sys2Proof.Machine

/-! ### Operands kept -/

/-- The operands of `s` and `t` are the same: the registers only the host writes, CMD, and those the block writes too (R20). -/
structure SameOperands (s t : State) : Prop where
  regs : t.regs = s.regs
  cmd : t.cmd = s.cmd
  paylen : t.paylen = s.paylen
  rxlen : t.rxlen = s.rxlen
  memory : sameMemory s t

/-- The operands, with the memory as it is listed. -/
def State.operands (s : State) : HostRegs × Word × BitVec 5 × BitVec 5 × Memory := (s.regs, s.cmd, s.paylen, s.rxlen, s.mem)

theorem SameOperands.of_eq {s t : State} (h : t.operands = s.operands) : SameOperands s t := by
  simp only [State.operands, Prod.mk.injEq] at h
  obtain ⟨hregs, hcmd, hpaylen, hrxlen, hmem⟩ := h
  exact ⟨hregs, hcmd, hpaylen, hrxlen, fun a => by rw [hmem]⟩

/-- A cycle of a command has led from `s` to `t`: the operands are the same, or, where `due` holds, a ramp step has started its
exchange, which keeps what only the host writes. -/
structure Spares (due : Prop) (s t : State) : Prop where
  regs : t.regs = s.regs
  cmd : t.cmd = s.cmd
  operands : (due ∧ t.st = .tx ∧ t.txIdx = 0) ∨ SameOperands s t

theorem Spares.of_same {due : Prop} {s t : State} (h : SameOperands s t) : Spares due s t := ⟨h.regs, h.cmd, .inr h⟩

theorem Spares.of_eq {due : Prop} {s t : State} (h : t.operands = s.operands) : Spares due s t := .of_same (.of_eq h)

theorem Spares.imp {due due' : Prop} {s t : State} (h : Spares due s t) (himp : due → due') : Spares due' s t :=
  ⟨h.regs, h.cmd, h.operands.imp_left (And.imp_left himp)⟩

theorem SameOperands.trans {s x t : State} (hx : SameOperands s x) (h : SameOperands x t) : SameOperands s t :=
  ⟨h.regs.trans hx.regs, h.cmd.trans hx.cmd, h.paylen.trans hx.paylen, h.rxlen.trans hx.rxlen,
    fun a => (h.memory a).trans (hx.memory a)⟩

theorem SameOperands.then_spares {due : Prop} {s x t : State} (hx : SameOperands s x) (h : Spares due x t) : Spares due s t :=
  ⟨h.regs.trans hx.regs, h.cmd.trans hx.cmd, h.operands.imp_right hx.trans⟩

theorem Spares.of_next {due : Prop} {s t u : State} (h : (.next u : Host.Outcome State Fault Refusal) = .next t)
    (hu : Spares due s u) : Spares due s t :=
  Host.Outcome.next.inj h ▸ hu

/-! ### The shared operations -/

theorem operands_of_decodeFrame {s t : State} {d : Option Detail} (h : decodeFrame s = (t, d)) : t.operands = s.operands := by
  obtain ⟨-, e⟩ | ⟨-, -, e⟩ | ⟨-, -, -, -, e⟩ | ⟨-, -, -, e⟩ := decodeFrame_cases s
  all_goals
    obtain ⟨rfl, -⟩ := Prod.mk.inj (e.symm.trans h)
    rfl

theorem rampStep_spares {due : Prop} (s : State) (hdue : due) : Spares due s (rampStep s) := by
  obtain ⟨-, e⟩ | ⟨-, e⟩ := rampStep_cases s
  · rw [e]
    exact ⟨rfl, rfl, .inl ⟨hdue, rfl, rfl⟩⟩
  · rw [e]
    exact .of_eq rfl

theorem rampContinue_spares {due : Prop} (s : State) (hdue : due) : Spares due s (rampContinue s) := by
  unfold rampContinue
  split
  · exact .of_eq rfl
  · exact rampStep_spares s hdue

theorem settleCycle_spares {due : Prop} (s : State) (hdue : due) : Spares due s (settleCycle s) := by
  obtain ⟨-, e⟩ | ⟨-, -, e⟩ | ⟨-, -, e⟩ := settleCycle_cases s
  · rw [e]
    exact .of_eq rfl
  · rw [e]
    exact .of_eq rfl
  · rw [e]
    have hcount : SameOperands s { s with scnt := 0 } := .of_eq rfl
    exact hcount.then_spares (rampStep_spares _ hdue)

/-! ### The end of an exchange -/

theorem singleShotAnswered_operands (a : SubAddr) (s : State) : (singleShotAnswered a s).operands = s.operands := by
  obtain ⟨t, d, hd, e⟩ | ⟨t, hd, -, -, e⟩ | ⟨t, hd, -, e⟩ := singleShotAnswered_cases a s
  all_goals
    have ht := operands_of_decodeFrame hd
    rw [e]
    exact ht

theorem rampAnswered_spares {due : Prop} (s : State) (hdue : due) : Spares due s (rampAnswered s) := by
  obtain ⟨t, d, hd, e⟩ | ⟨t, hd, -, e⟩ | ⟨t, hd, -, -, e⟩ | ⟨t, hd, -, -, e⟩ := rampAnswered_cases s
  all_goals
    have ht := operands_of_decodeFrame hd
    rw [e]
  · exact .of_eq ht
  · exact .of_eq ht
  · have hrecorded : SameOperands s (recordedStep t) := .of_eq ht
    exact hrecorded.then_spares (rampContinue_spares _ hdue)
  · exact .of_eq ht

theorem exchangeOk_spares (s : State) : Spares (s.opr = 10) s (exchangeOk s) := by
  have hclosed : SameOperands s { s with rxw := false } := .of_eq rfl
  obtain ⟨a, -, e⟩ | ⟨-, hop, e⟩ | ⟨-, -, e⟩ := exchangeOk_cases s
  · exact e ▸ hclosed.then_spares (.of_eq (singleShotAnswered_operands a _))
  · exact e ▸ hclosed.then_spares (rampAnswered_spares _ hop)
  · exact e ▸ .of_eq rfl

/-! ### The cycles of a busy block -/

/-- Only the cycle that sends the last byte can end an exchange in TX (R155). -/
theorem txCycle_spares (s : State) : Spares (s.opr = 10 ∧ s.txIdx ≠ 0) s (txCycle s) := by
  obtain ⟨-, e⟩ | ⟨-, -, e⟩ | ⟨-, -, -, e⟩ | ⟨-, -, -, -, e⟩ | ⟨-, -, hlast, -, e⟩ := txCycle_cases s
  all_goals rw [e]
  · split
    · exact .of_eq rfl
    · exact .of_eq rfl
  · exact .of_eq rfl
  · exact .of_eq rfl
  · exact .of_eq rfl
  · have hidx : s.txIdx ≠ 0 := by
      intro h
      rw [h] at hlast
      exact absurd hlast (by decide)
    have htaken : SameOperands s (byteTaken s) := .of_eq rfl
    exact htaken.then_spares ((exchangeOk_spares _).imp fun hop => ⟨hop, hidx⟩)

theorem waitCycle_operands (s : State) : (waitCycle s).operands = s.operands := by
  obtain ⟨-, -, e⟩ | ⟨-, e⟩ := waitCycle_cases s
  · exact e ▸ rfl
  · exact e ▸ rfl

/-- Writing back the header that stands in a buffer changes no byte. -/
theorem putHeader_standing {s : State} {base : Nat} {b0 b1 b2 : Byte} (h0 : s.mem.read base = b0)
    (h1 : s.mem.read (base + 1) = b1) (h2 : s.mem.read (base + 2) = b2) : SameOperands s (putHeader base b0 b1 b2 s) := by
  refine ⟨rfl, rfl, rfl, rfl, fun a => ?_⟩
  rw [putHeader_mem, Memory.read_writeBytes]
  split
  case isFalse => rfl
  case isTrue hin =>
    obtain ⟨i, rfl⟩ := Nat.exists_eq_add_of_le hin.1
    have hi : i < 3 := Nat.lt_of_add_lt_add_left hin.2.1
    subst h0 h1 h2
    interval_cases i <;> simp

/-- A header that decodes to a command frame is that frame's header (R88). -/
theorem header_of_decodeCommandFrame {b0 dev b2 : Byte} {i : Instr} (h : decodeCommandFrame b0 dev b2 = .ok i) :
    b0 = Config.sync ∧ ∃ a : SubAddr, b2 = a.code ∧ i = Instr.ofFrame a dev := by
  unfold decodeCommandFrame at h
  split at h
  case isFalse => cases h
  case isTrue hsync =>
    split at h
    case h_1 a ha =>
      have hcode : a.code = b2 := by simpa using List.find?_some ha
      exact ⟨hsync, a, hcode.symm, (Except.ok.inj h).symm⟩
    case h_2 => cases h

theorem header_of_decodeResponseFrame {b0 dev sub : Byte} {i : Instr} (h : decodeResponseFrame b0 dev sub = .ok i) :
    b0 = Config.sync ∧ i = .frameResponse dev sub := by
  unfold decodeResponseFrame at h
  split at h
  case isTrue hsync => exact ⟨hsync, (Except.ok.inj h).symm⟩
  case isFalse => cases h

theorem sendCycle_spares {s t : State} (hst : s.st = .tx) (h : sendCycle s = .next t) :
    Spares (s.opr = 10 ∧ s.txIdx ≠ 0) s t := by
  unfold sendCycle at h
  split at h
  case h_1 i hi =>
    obtain ⟨hsync, a, hcode, rfl⟩ := header_of_decodeCommandFrame (b0 := s.mem.read Config.txBase) hi
    rw [exec_ofFrame, transmitFrame, if_pos hst] at h
    exact .of_next h ((putHeader_standing hsync rfl hcode).then_spares (txCycle_spares (putHeader _ _ _ a.code s)))
  case h_2 => exact .of_next h (txCycle_spares s)

theorem receiveCycle_spares {s t : State} (hst : s.st = .rx) (h : receiveCycle s = .next t) : Spares (s.opr = 10) s t := by
  unfold receiveCycle at h
  split at h
  · exact .of_next h (.of_eq rfl)
  · split at h
    · unfold answerCycle at h
      split at h
      case h_1 i hi =>
        obtain ⟨hsync, rfl⟩ := header_of_decodeResponseFrame (b0 := s.mem.read Config.rxBase) hi
        rw [exec_frameResponse, takeResponse, if_pos hst] at h
        exact .of_next h ((putHeader_standing hsync rfl rfl).then_spares (exchangeOk_spares (putHeader _ _ _ _ s)))
      case h_2 => exact .of_next h (exchangeOk_spares s)
    · exact .of_next h (.of_eq (waitCycle_operands s))

/-- Where a ramp step can start: after a settle wait, or at the end of a ramp step's exchange, past its first byte. -/
def rampStepDue (s : State) : Prop := (s.st = .settle ∨ s.opr = 10) ∧ (s.st = .tx → s.txIdx ≠ 0)

theorem engineCycle_spares {s t : State} (h : engineCycle s = .next t) : Spares (rampStepDue s) s t := by
  unfold engineCycle at h
  split at h
  case h_1 => exact .of_next h (.of_eq rfl)
  case h_2 hst => exact (sendCycle_spares hst h).imp fun ⟨hop, hidx⟩ => ⟨.inr hop, fun _ => hidx⟩
  case h_3 hst => exact (receiveCycle_spares hst h).imp fun hop => ⟨.inr hop, by simp [hst]⟩
  case h_4 hst => exact .of_next h (settleCycle_spares s ⟨.inl hst, by simp [hst]⟩)

/-! ### A whole step -/

theorem step_spares {s t : State} (hst : s.st ≠ .idle) (hrst : s.pins.rst = false) (h : step s = .next t) :
    ∃ v, t = v.tick ∧ Spares (rampStepDue s) s.served v := by
  obtain ⟨status, mem, rxlen, hserved, -⟩ := served_frame s
  obtain ⟨b, hb⟩ := busyWrite_frame s.pins s.served
  have hbusy : s.served.st ≠ .idle := by rwa [hserved]
  have hmarked : SameOperands s.served (busyWrite s.pins s.served) := hb ▸ .of_eq rfl
  have hdue : rampStepDue (busyWrite s.pins s.served) → rampStepDue s := by
    rw [hb, hserved]
    exact id
  rw [step_of_not_rst hrst, blockCycle_of_busy _ hbusy] at h
  obtain ⟨v, hv, rfl⟩ := thenTick_eq_next h
  exact ⟨v, rfl, hmarked.then_spares ((engineCycle_spares hv).imp hdue)⟩

/-- PAYLEN is kept, and RXLEN and the buffers but for a byte that this cycle receives into RXBUF (R154). -/
def keptButForAByte (s t : State) : Prop :=
  t.paylen = s.paylen ∧
    if s.pins.rxValid = true ∧ s.st ≠ .settle ∧ s.rxlen.toNat < 26 then
      t.rxlen.toNat = s.rxlen.toNat + 1 ∧ t.rxByte s.rxlen.toNat = s.pins.rxData ∧
      ∀ a, a ≠ 0xA0 + s.rxlen.toNat → t.mem.read a = s.mem.read a
    else t.rxlen = s.rxlen ∧ sameMemory s t

theorem SameOperands.keptButForAByte {s x t : State} (h : SameOperands x t) (hx : keptButForAByte s x) :
    Machine.keptButForAByte s t := by
  obtain ⟨hpaylen, hrest⟩ := hx
  refine ⟨h.paylen.trans hpaylen, ?_⟩
  split at hrest
  case isTrue hb =>
    obtain ⟨hlen, hbyte, hmem⟩ := hrest
    rw [if_pos hb]
    exact ⟨h.rxlen ▸ hlen, (h.memory _).trans hbyte, fun a ha => (h.memory a).trans (hmem a ha)⟩
  case isFalse hb =>
    obtain ⟨hlen, hmem⟩ := hrest
    rw [if_neg hb]
    exact ⟨h.rxlen.trans hlen, fun a => (h.memory a).trans (hmem a)⟩

/-- A byte is stored in TX and RX, within the window (R153); in SETTLE it is a stray (R56). -/
theorem receive_keeps_operands {s : State} (hwindow : s.rxw = true ↔ s.st ≠ .settle) : keptButForAByte s (receive s) := by
  obtain ⟨hv, e⟩ | ⟨hv, hw, hlt, e⟩ | ⟨hv, hnot, e⟩ := receive_cases s <;> rw [e]
  · exact ⟨rfl, by simp [hv, sameMemory]⟩
  · have hlen : (s.rxlen + 1).toNat = s.rxlen.toNat + 1 := by
      rw [BitVec.toNat_add_of_lt (by simp; omega)]
      rfl
    refine ⟨rfl, ?_⟩
    rw [if_pos ⟨hv, hwindow.mp hw, hlt⟩]
    refine ⟨hlen, ?_, fun a ha => ?_⟩
    · exact (Memory.read_write ..).trans (if_pos ⟨rfl, isBufferByte_rx hlt⟩)
    · exact (Memory.read_write ..).trans (if_neg fun h => ha h.1)
  · have hnone : ¬(s.pins.rxValid = true ∧ s.st ≠ .settle ∧ s.rxlen.toNat < 26) := fun ⟨_, hs, hlt⟩ =>
      hnot ⟨hwindow.mpr hs, hlt⟩
    refine ⟨rfl, ?_⟩
    rw [if_neg hnone]
    exact ⟨rfl, fun _ => rfl⟩

theorem State.EngineInv.rxw_iff_of_busy {s : State} (hinv : s.EngineInv) (hst : s.st ≠ .idle) :
    s.rxw = true ↔ s.st ≠ .settle := by
  rw [hinv.window, State.exchanging]
  cases h : s.st with
  | idle => exact absurd h hst
  | tx | rx | settle => simp

theorem served_keeps_operands {s : State} (hinv : s.EngineInv) (hst : s.st ≠ .idle) : keptButForAByte s s.served := by
  have hwindow := hinv.rxw_iff_of_busy hst
  rw [State.served, statusWrite]
  split
  · exact receive_keeps_operands (s := clearStatus _ s) hwindow
  · exact receive_keeps_operands hwindow

/-- Settles O53: a busy cycle spares the operands as this cycle's byte has left them, unless a ramp step starts. -/
theorem busyBlockKeepsItsOperands : Obligations.BusyBlockKeepsItsOperands := by
  intro s t hst hrst hstep
  obtain ⟨status, mem, rxlen, hserved, -⟩ := served_frame s
  obtain ⟨v, rfl, h⟩ := step_spares hst hrst hstep
  have hregs : s.served.regs = s.regs := by rw [hserved]
  have hcmd : s.served.cmd = s.cmd := by rw [hserved]
  refine ⟨⟨h.regs.trans hregs, h.cmd.trans hcmd⟩, fun hinv => ?_⟩
  obtain ⟨⟨hop, hidx⟩, htx, hzero⟩ | hsame := h.operands
  · have hramp : s.opr = 10 := hop.elim (fun hsettle => (hinv.engine.settling hsettle).1) id
    exact .inl ⟨hramp, hidx, htx, hzero⟩
  · exact .inr (hsame.keptButForAByte (served_keeps_operands hinv.engine hst))

end Sys2Proof.Machine
end

section
/-! Command words (R84 to R87): the fields of a word, the decoder by the row its OP selects, and the words it refuses. -/

namespace Sys2Proof.Machine

/-! ### The fields of a command word (R84) -/

/-- The word of all fields of R84, the reserved bits 31:24 and 7:5 among them. -/
def fieldsWord (hi : Byte) (wid : BitVec 3) (off : BitVec 5) (sub : Byte) (mid : BitVec 3) (buf : BitVec 1)
    (op : BitVec 4) : Word :=
  hi ++ wid ++ off ++ sub ++ mid ++ buf ++ op

theorem extract_concat_extract {n start' start len' len : Nat} (x : BitVec n) (h : start' = start + len) :
    @HAppend.hAppend _ _ (no_index _) _ (x.extractLsb' start' len') (x.extractLsb' start len) =
      x.extractLsb' start (len' + len) :=
  BitVec.extractLsb'_append_extractLsb'_eq_extractLsb' h

theorem commandWord_eq_fieldsWord (op : BitVec 4) (buf : BitVec 1) (sub : Byte) (off : BitVec 5) (wid : BitVec 3) :
    commandWord op buf sub off wid = fieldsWord 0 wid off sub 0 buf op := rfl

theorem fieldsWord_extract (w : Word) :
    fieldsWord (w.extractLsb' 24 8) (w.extractLsb' 21 3) (w.extractLsb' 16 5) (w.extractLsb' 8 8) (w.extractLsb' 5 3)
      (w.extractLsb' 4 1) (w.extractLsb' 0 4) = w := by
  simp [fieldsWord, extract_concat_extract]

theorem fieldsWord_and (hi hi' : Byte) (wid wid' : BitVec 3) (off off' : BitVec 5) (sub sub' : Byte) (mid mid' : BitVec 3)
    (buf buf' : BitVec 1) (op op' : BitVec 4) :
    fieldsWord hi wid off sub mid buf op &&& fieldsWord hi' wid' off' sub' mid' buf' op' =
      fieldsWord (hi &&& hi') (wid &&& wid') (off &&& off') (sub &&& sub') (mid &&& mid') (buf &&& buf') (op &&& op') := by
  simp only [fieldsWord, ↓and_concat]

theorem extract_commandWord (op : BitVec 4) (buf : BitVec 1) (sub : Byte) (off : BitVec 5) (wid : BitVec 3) :
    (commandWord op buf sub off wid).extractLsb' 0 4 = op ∧ (commandWord op buf sub off wid).extractLsb' 4 1 = buf ∧
    (commandWord op buf sub off wid).extractLsb' 5 3 = 0 ∧
    (commandWord op buf sub off wid).extractLsb' 8 8 = sub ∧ (commandWord op buf sub off wid).extractLsb' 16 5 = off ∧
    (commandWord op buf sub off wid).extractLsb' 21 3 = wid ∧ (commandWord op buf sub off wid).extractLsb' 24 8 = 0 := by
  simp [commandWord, extractLsb'_concat_high, extractLsb'_concat_low]

theorem wordOfBytes_bytesOfWord (w : Word) :
    wordOfBytes (w.extractLsb' 0 8) (w.extractLsb' 8 8) (w.extractLsb' 16 8) (w.extractLsb' 24 8) = w := by
  simp [wordOfBytes, extract_concat_extract]

theorem decode_command_bytesOfWord (w : Word) : decode .command (bytesOfWord w) = decodeCommand w :=
  congrArg decodeCommand (wordOfBytes_bytesOfWord w)

theorem cmdReservedClear_iff (w : Word) :
    cmdReservedClear w = true ↔ w.extractLsb' 5 3 = 0 ∧ w.extractLsb' 24 8 = 0 := by
  simp [cmdReservedClear]

theorem bit_cmdBuf (w : Word) : (cmdBuf w).bit = w.extractLsb' 4 1 := by
  have every : ∀ b : BitVec 1, (if b = 1 then BufSel.tx else .rx).bit = b := by decide
  exact every _

theorem ofNat_cmdOff (w : Word) : BitVec.ofNat 5 (cmdOff w) = w.extractLsb' 16 5 := by
  rw [cmdOff, BitVec.ofNat_toNat, BitVec.setWidth_eq]

theorem ofNat_cmdWid (w : Word) : BitVec.ofNat 3 (cmdWid w) = w.extractLsb' 21 3 := by
  rw [cmdWid, BitVec.ofNat_toNat, BitVec.setWidth_eq]

section

variable (op : BitVec 4) (buf : BufSel) (sub : Byte) (off : BitVec 5) (wid : BitVec 3)

@[simp] theorem cmdOp_commandWord (bit : BitVec 1) : cmdOp (commandWord op bit sub off wid) = op := by
  obtain ⟨hop, -⟩ := extract_commandWord op bit sub off wid
  exact hop

@[simp] theorem cmdReservedClear_commandWord (bit : BitVec 1) : cmdReservedClear (commandWord op bit sub off wid) = true := by
  obtain ⟨-, -, hmid, -, -, -, hhigh⟩ := extract_commandWord op bit sub off wid
  exact (cmdReservedClear_iff _).mpr ⟨hmid, hhigh⟩

@[simp] theorem cmdSub_commandWord (bit : BitVec 1) : cmdSub (commandWord op bit sub off wid) = sub := by
  obtain ⟨-, -, -, hsub, -⟩ := extract_commandWord op bit sub off wid
  exact hsub

@[simp] theorem cmdBuf_commandWord : cmdBuf (commandWord op buf.bit sub off wid) = buf := by
  obtain ⟨-, hbuf, -⟩ := extract_commandWord op buf.bit sub off wid
  rw [cmdBuf, hbuf]
  cases buf <;> rfl

@[simp] theorem cmdOff_commandWord (bit : BitVec 1) : cmdOff (commandWord op bit sub off wid) = off.toNat := by
  obtain ⟨-, -, -, -, hoff, -⟩ := extract_commandWord op bit sub off wid
  rw [cmdOff, hoff]

@[simp] theorem cmdWid_commandWord (bit : BitVec 1) : cmdWid (commandWord op bit sub off wid) = wid.toNat := by
  obtain ⟨-, -, -, -, -, hwid, -⟩ := extract_commandWord op bit sub off wid
  rw [cmdWid, hwid]

end

/-! ### The decoder by rows (R85 to R87) -/

/-- The operation of a legal OP with the fields it uses (R86). -/
def rowOfOp (op : Nat) (w : Word) : Instr :=
  match op with
  | 1 => .encRaw (cmdSub w)
  | 2 => .encNum (cmdSub w)
  | 3 => .decode
  | 4 => .xfer
  | 5 => .remote
  | 6 => .output
  | 7 => .setMaxv
  | 8 => .setImax
  | 9 => .status
  | 10 => .ramp
  | 11 => .validate (cmdBuf w)
  | _ => .unpack (cmdBuf w) (cmdOff w) (cmdWid w)

/-- Whether an OP has a row in R86. -/
def isLegalOp (op : Nat) : Prop := 1 ≤ op ∧ op ≤ 12

theorem decodeCommand_of_illegal_op {w : Word} (h : ¬ isLegalOp (cmdOp w).toNat) : decodeCommand w = .error .badOp := by
  unfold decodeCommand
  exact if_pos (by unfold isLegalOp at h; omega)

theorem decodeCommand_of_reserved {w : Word} (hop : isLegalOp (cmdOp w).toNat) (hres : cmdReservedClear w = false) :
    decodeCommand w = .error .rsvdBits := by
  unfold decodeCommand
  rw [if_neg (by unfold isLegalOp at hop; omega), if_pos hres]

theorem decodeCommand_of_legal {w : Word} (hop : isLegalOp (cmdOp w).toNat) (hres : cmdReservedClear w = true) :
    decodeCommand w = .ok (rowOfOp (cmdOp w).toNat w) := by
  unfold decodeCommand
  simp only [hres]
  generalize (cmdOp w).toNat = op at hop
  obtain ⟨hlow, hhigh⟩ := hop
  interval_cases op <;> rfl

/-- What a command word decodes to, in R85's order: OP first, then the reserved bits. -/
theorem decodeCommand_cases (w : Word) :
    (¬ isLegalOp (cmdOp w).toNat ∧ decodeCommand w = .error .badOp) ∨
    (isLegalOp (cmdOp w).toNat ∧ cmdReservedClear w = false ∧ decodeCommand w = .error .rsvdBits) ∨
    (isLegalOp (cmdOp w).toNat ∧ cmdReservedClear w = true ∧ decodeCommand w = .ok (rowOfOp (cmdOp w).toNat w)) := by
  by_cases hop : isLegalOp (cmdOp w).toNat
  · cases hres : cmdReservedClear w with
    | false => exact .inr (.inl ⟨hop, rfl, decodeCommand_of_reserved hop hres⟩)
    | true => exact .inr (.inr ⟨hop, rfl, decodeCommand_of_legal hop hres⟩)
  · exact .inl ⟨hop, decodeCommand_of_illegal_op hop⟩

theorem decodeCommand_eq_badOp_iff (w : Word) : decodeCommand w = .error .badOp ↔ ¬ isLegalOp (cmdOp w).toNat := by
  obtain ⟨hop, h⟩ | ⟨hop, -, h⟩ | ⟨hop, -, h⟩ := decodeCommand_cases w <;> simp [h, hop]

theorem decodeCommand_eq_rsvdBits_iff (w : Word) :
    decodeCommand w = .error .rsvdBits ↔ isLegalOp (cmdOp w).toNat ∧ cmdReservedClear w = false := by
  obtain ⟨hop, h⟩ | ⟨hop, hres, h⟩ | ⟨hop, hres, h⟩ := decodeCommand_cases w
  · simp [h, hop]
  · simp [h, hop, hres]
  · simp [h, hres]

theorem decodeCommand_eq_ok_iff (w : Word) (i : Instr) :
    decodeCommand w = .ok i ↔
      isLegalOp (cmdOp w).toNat ∧ cmdReservedClear w = true ∧ i = rowOfOp (cmdOp w).toNat w := by
  obtain ⟨hop, h⟩ | ⟨-, hres, h⟩ | ⟨hop, hres, h⟩ := decodeCommand_cases w
  · simp [h, hop]
  · simp [h, hres]
  · simp [h, hop, hres, eq_comm]

theorem decodeCommand_commandWord {op : BitVec 4} (hop : isLegalOp op.toNat) (buf : BitVec 1) (sub : Byte) (off : BitVec 5)
    (wid : BitVec 3) :
    decodeCommand (commandWord op buf sub off wid) = .ok (rowOfOp op.toNat (commandWord op buf sub off wid)) := by
  rw [decodeCommand_eq_ok_iff, cmdOp_commandWord]
  exact ⟨hop, cmdReservedClear_commandWord .., rfl⟩

/-! ### The decoder against the encoder -/

/-- A command comes back from its encoding when the row of its OP reads its operands off the packed word (R84, R86). -/
theorem decode_encode_of_row {i : Instr} {op : BitVec 4} {buf : BitVec 1} {sub : Byte} {off : BitVec 5} {wid : BitVec 3}
    (hop : isLegalOp op.toNat) (henc : encode i = bytesOfWord (commandWord op buf sub off wid))
    (hrow : rowOfOp op.toNat (commandWord op buf sub off wid) = i) : decode .command (encode i) = .ok i := by
  rw [henc, decode_command_bytesOfWord, decodeCommand_commandWord hop, hrow]

theorem ofByte_code (a : SubAddr) : SubAddr.ofByte a.code = some a := by
  cases a <;> rfl

theorem decode_transmit_frame (a : SubAddr) (dev : Byte) (rest : List Byte) :
    decode .transmit (Config.sync :: dev :: a.code :: rest) = .ok (Instr.ofFrame a dev) := by
  simp [decode, decodeCommandFrame, ofByte_code]

theorem decode_receive_frame (dev sub : Byte) (rest : List Byte) :
    decode .receive (Config.sync :: dev :: sub :: rest) = .ok (.frameResponse dev sub) := by
  simp [decode, decodeResponseFrame]

/-- Settles O1: each command word holds its row's OP and operands, each frame header its sync byte and sub-address. -/
theorem decodeOfEncodeIsTheInstruction : Obligations.DecodeOfEncodeIsTheInstruction := by
  intro i hwf
  cases i with
  | encRaw sub => exact decode_encode_of_row ⟨by decide, by decide⟩ rfl (congrArg Instr.encRaw (cmdSub_commandWord ..))
  | encNum sub => exact decode_encode_of_row ⟨by decide, by decide⟩ rfl (congrArg Instr.encNum (cmdSub_commandWord ..))
  | decode | xfer | remote | output | setMaxv | setImax | status | ramp => rfl
  | validate buf => exact decode_encode_of_row ⟨by decide, by decide⟩ rfl (congrArg Instr.validate (cmdBuf_commandWord ..))
  | unpack buf off wid =>
    simp only [Instr.wellFormed, Bool.and_eq_true, decide_eq_true_eq] at hwf
    obtain ⟨hoff, hwid⟩ := hwf
    refine decode_encode_of_row ⟨by decide, by decide⟩ rfl ?_
    simp [rowOfOp, Nat.mod_eq_of_lt (Nat.lt_succ_of_le hoff), Nat.mod_eq_of_lt (Nat.lt_succ_of_le hwid)]
  | frameRemoteControl dev => exact decode_transmit_frame .remoteControl dev []
  | frameOutputEnable dev => exact decode_transmit_frame .outputEnable dev []
  | frameMaxVoltage dev => exact decode_transmit_frame .maxVoltage dev []
  | frameVoltageSetpoint dev => exact decode_transmit_frame .voltageSetpoint dev []
  | frameCurrentLimit dev => exact decode_transmit_frame .currentLimit dev []
  | frameStatusQuery dev => exact decode_transmit_frame .statusQuery dev []
  | frameResponse dev sub => exact decode_receive_frame dev sub []

/-- Settles O5: six of the byte lists are encodings, and the word 0x23 has the legal OP 3 and a reserved bit. -/
theorem writtenWordsDecode : Obligations.WrittenWordsDecode := by
  have hreserved : decodeCommand 0x23 = .error .rsvdBits := decodeCommand_of_reserved ⟨by decide, by decide⟩ rfl
  exact ⟨decodeOfEncodeIsTheInstruction (.encRaw 0x23) rfl, decodeOfEncodeIsTheInstruction (.unpack .rx 5 4) rfl,
    decodeOfEncodeIsTheInstruction (.validate .tx) rfl, decodeOfEncodeIsTheInstruction .ramp rfl, hreserved,
    decodeOfEncodeIsTheInstruction (.frameMaxVoltage 5) rfl, decodeOfEncodeIsTheInstruction (.frameResponse 0 0x23) rfl⟩

/-! ### The masks of a command word (R86, R87) -/

theorem toNat_cmdOp (w : Word) : (cmdOp w).toNat = (w &&& 0xF#32).toNat := by
  rw [cmdOp, BitVec.extractLsb'_toNat, BitVec.toNat_and]
  exact (Nat.and_two_pow_sub_one_eq_mod w.toNat 4).symm

theorem and_eq_zero_iff_reserved_clear (w : Word) : w &&& 0xFF0000E0#32 = 0#32 ↔ cmdReservedClear w = true := by
  have mask : 0xFF0000E0#32 = fieldsWord 0xFF 0 0 0 7 0 0 := rfl
  rw [cmdReservedClear_iff]
  constructor
  · intro h
    have hmid := congrArg (BitVec.extractLsb' 5 3) h
    have hhigh := congrArg (BitVec.extractLsb' 24 8) h
    rw [BitVec.extractLsb'_and] at hmid hhigh
    exact ⟨(BitVec.and_allOnes (x := w.extractLsb' 5 3)).symm.trans hmid,
      (BitVec.and_allOnes (x := w.extractLsb' 24 8)).symm.trans hhigh⟩
  · rintro ⟨hmid, hhigh⟩
    rw [← fieldsWord_extract w, mask, fieldsWord_and, hmid, hhigh]
    simp only [BitVec.ofNat_eq_ofNat, BitVec.and_zero, BitVec.zero_and]
    rfl

/-- The mask of R86's rows is that of the reserved bits and that of OP. -/
theorem and_row_mask_eq_iff (w : Word) {m : Nat} (hm : m ≤ 12) :
    (w &&& 0xFF0000EF#32).toNat = m ↔ w &&& 0xFF0000E0#32 = 0#32 ∧ (w &&& 0xF#32).toNat = m := by
  constructor
  · intro h
    have hw : w &&& 0xFF0000EF#32 = BitVec.ofNat 32 m := by rw [← h, BitVec.ofNat_toNat, BitVec.setWidth_eq]
    have hreserved : w &&& 0xFF0000E0#32 = BitVec.ofNat 32 m &&& 0xFF0000E0#32 := by rw [← hw, BitVec.and_assoc]; rfl
    have hop : w &&& 0xF#32 = BitVec.ofNat 32 m &&& 0xF#32 := by rw [← hw, BitVec.and_assoc]; rfl
    rw [hreserved, hop]
    clear h hw hreserved hop
    interval_cases m <;> decide
  · rintro ⟨hreserved, hop⟩
    have hmask : w &&& 0xFF0000EF#32 = (w &&& 0xFF0000E0#32) ||| (w &&& 0xF#32) := by rw [← BitVec.and_or_distrib_left]; rfl
    rw [hmask, hreserved, BitVec.zero_or, hop]

theorem opcode_rowOfOp {op : Nat} (h : isLegalOp op) (w : Word) : (rowOfOp op w).opcode = some op := by
  obtain ⟨hlow, hhigh⟩ := h
  interval_cases op <;> rfl

/-- Settles O2: the masks of R86 and R87 read off OP and the reserved bits, which decide what a word decodes to. -/
theorem commandWordMatchesItsRow : Obligations.CommandWordMatchesItsRow := by
  intro w
  refine ⟨fun m hlow hhigh => ?_, ?_, ?_⟩
  · rw [and_row_mask_eq_iff w hhigh, and_eq_zero_iff_reserved_clear, ← toNat_cmdOp]
    constructor
    · rintro ⟨i, hi, hm⟩
      obtain ⟨hop, hclear, rfl⟩ := (decodeCommand_eq_ok_iff w i).mp hi
      rw [opcode_rowOfOp hop] at hm
      exact ⟨hclear, Option.some.inj hm⟩
    · rintro ⟨hclear, rfl⟩
      have hop : isLegalOp (cmdOp w).toNat := ⟨hlow, hhigh⟩
      exact ⟨_, decodeCommand_of_legal hop hclear, opcode_rowOfOp hop w⟩
  · have hlt : (cmdOp w).toNat < 16 := (cmdOp w).isLt
    rw [decodeCommand_eq_badOp_iff, isLegalOp, ← toNat_cmdOp]
    omega
  · rw [decodeCommand_eq_rsvdBits_iff, isLegalOp, ← toNat_cmdOp, Ne, and_eq_zero_iff_reserved_clear, Bool.not_eq_true,
      and_assoc]

/-! ### The fields an operation uses (R84) -/

/-- The bits of the fields that a command's operation uses. -/
def usedBits : Instr → Word
  | .encRaw _ => commandWord (.allOnes 4) 0 (.allOnes 8) 0 0
  | .encNum _ => commandWord (.allOnes 4) 0 (.allOnes 8) 0 0
  | .validate _ => commandWord (.allOnes 4) (.allOnes 1) 0 0 0
  | .unpack _ _ _ => commandWord (.allOnes 4) (.allOnes 1) 0 (.allOnes 5) (.allOnes 3)
  | _ => commandWord (.allOnes 4) 0 0 0 0

theorem usedBits_of_others (i : Instr) (henc : ∀ sub, i ≠ .encRaw sub ∧ i ≠ .encNum sub) (hval : ∀ b, i ≠ .validate b)
    (hunp : ∀ b o wd, i ≠ .unpack b o wd) : usedBits i = 0xF#32 := by
  cases i with
  | encRaw sub => exact absurd rfl (henc sub).1
  | encNum sub => exact absurd rfl (henc sub).2
  | validate b => exact absurd rfl (hval b)
  | unpack b o wd => exact absurd rfl (hunp b o wd)
  | _ => rfl

theorem and_commandWord (w : Word) (op : BitVec 4) (buf : BitVec 1) (sub : Byte) (off : BitVec 5) (wid : BitVec 3) :
    w &&& commandWord op buf sub off wid =
      commandWord (cmdOp w &&& op) (w.extractLsb' 4 1 &&& buf) (cmdSub w &&& sub) (w.extractLsb' 16 5 &&& off)
        (w.extractLsb' 21 3 &&& wid) := by
  conv_lhs => rw [← fieldsWord_extract w, commandWord_eq_fieldsWord, fieldsWord_and]
  simp only [BitVec.ofNat_eq_ofNat, BitVec.and_zero]
  rfl

/-- Encoding a row of R86 packs the word's own OP and the fields of the word that the row uses. -/
theorem encode_rowOfOp {w : Word} (h : isLegalOp (cmdOp w).toNat) :
    encode (rowOfOp (cmdOp w).toNat w) = bytesOfWord (w &&& usedBits (rowOfOp (cmdOp w).toNat w)) := by
  obtain ⟨n, hn⟩ : ∃ n, (cmdOp w).toNat = n := ⟨_, rfl⟩
  have hop : cmdOp w = BitVec.ofNat 4 n := by rw [← hn, BitVec.ofNat_toNat, BitVec.setWidth_eq]
  rw [hn] at h ⊢
  obtain ⟨hlow, hhigh⟩ := h
  interval_cases n <;>
    simp [rowOfOp, encode, usedBits, and_commandWord, hop, bit_cmdBuf, ofNat_cmdOff, ofNat_cmdWid, -BitVec.reduceAllOnes]

/-- Settles O3: encoding packs the used fields of the word, so the mask is that of its row. -/
theorem encodeOfDecodeKeepsTheUsedFields : Obligations.EncodeOfDecodeKeepsTheUsedFields := by
  intro w i h
  obtain ⟨hop, -, rfl⟩ := (decodeCommand_eq_ok_iff w i).mp h
  refine ⟨_, encode_rowOfOp hop, ?_, ?_, ?_, usedBits_of_others _⟩
  · rintro sub (hi | hi) <;> rw [hi] <;> rfl
  · intro b hi
    rw [hi]
    rfl
  · intro b o wd hi
    rw [hi]
    rfl

/-! ### Frames (R88) -/

theorem encode_ofFrame (a : SubAddr) (dev : Byte) : encode (Instr.ofFrame a dev) = [Config.sync, dev, a.code] := by
  cases a <;> rfl

theorem decode_transmit_eq_ok_iff (b0 b1 b2 : Byte) (rest : List Byte) (a : SubAddr) :
    decode .transmit (b0 :: b1 :: b2 :: rest) = .ok (Instr.ofFrame a b1) ↔ b0 = Config.sync ∧ b2 = a.code := by
  constructor
  · intro h
    obtain ⟨hsync, a', hcode, hframe⟩ := header_of_decodeCommandFrame h
    have hsame : a.code = a'.code := by simpa [encode_ofFrame] using congrArg encode hframe
    exact ⟨hsync, hcode.trans hsame.symm⟩
  · rintro ⟨rfl, rfl⟩
    exact decode_transmit_frame a b1 rest

theorem decode_receive_eq_ok_iff (b0 b1 b2 : Byte) (rest : List Byte) :
    decode .receive (b0 :: b1 :: b2 :: rest) = .ok (.frameResponse b1 b2) ↔ b0 = Config.sync := by
  constructor
  · intro h
    obtain ⟨hsync, -⟩ := header_of_decodeResponseFrame h
    exact hsync
  · rintro rfl
    exact decode_receive_frame b1 b2 rest

theorem headerWord_and (b0 b1 b2 c0 c1 c2 : Byte) :
    headerWord b0 b1 b2 &&& headerWord c0 c1 c2 = headerWord (b0 &&& c0) (b1 &&& c1) (b2 &&& c2) := by
  simp only [headerWord, ↓and_concat]

theorem extract_headerWord (b0 b1 b2 : Byte) :
    (headerWord b0 b1 b2).extractLsb' 0 8 = b0 ∧ (headerWord b0 b1 b2).extractLsb' 16 8 = b2 := by
  simp [headerWord, extractLsb'_concat_high, extractLsb'_concat_low]

/-- The mask of a command frame's row leaves byte 0 and byte 2 of the header. -/
theorem headerWord_and_command_mask (b0 b1 b2 : Byte) : headerWord b0 b1 b2 &&& 0xFF00FF#24 = headerWord b0 0 b2 := by
  have mask : 0xFF00FF#24 = headerWord (BitVec.allOnes 8) 0#8 (BitVec.allOnes 8) := rfl
  rw [mask, headerWord_and, BitVec.and_allOnes, BitVec.and_zero, BitVec.and_allOnes]
  rfl

/-- The mask of the response's row leaves byte 0 of the header. -/
theorem headerWord_and_response_mask (b0 b1 b2 : Byte) : headerWord b0 b1 b2 &&& 0x0000FF#24 = headerWord b0 0 0 := by
  have mask : 0x0000FF#24 = headerWord (BitVec.allOnes 8) 0#8 0#8 := rfl
  rw [mask, headerWord_and, BitVec.and_allOnes, BitVec.and_zero, BitVec.and_zero]
  rfl

theorem headerWord_toNat_eq_iff (b0 b2 c0 c2 : Byte) :
    (headerWord b0 0 b2).toNat = (headerWord c0 0 c2).toNat ↔ b0 = c0 ∧ b2 = c2 := by
  constructor
  · intro h
    have hword : headerWord b0 0 b2 = headerWord c0 0 c2 := BitVec.eq_of_toNat_eq h
    obtain ⟨hb0, hb2⟩ := extract_headerWord b0 0 b2
    obtain ⟨hc0, hc2⟩ := extract_headerWord c0 0 c2
    exact ⟨by rw [← hb0, hword, hc0], by rw [← hb2, hword, hc2]⟩
  · rintro ⟨rfl, rfl⟩
    rfl

/-- Settles O4: a masked header word holds the sync byte and the sub-address, on which the decoder decides. -/
theorem frameHeaderMatchesItsRow : Obligations.FrameHeaderMatchesItsRow := by
  intro b0 b1 b2 rest
  constructor
  · intro a
    have hrow : a.code.toNat * 2 ^ 16 + 0xAA = (headerWord Config.sync 0 a.code).toNat := by cases a <;> rfl
    rw [decode_transmit_eq_ok_iff, headerWord_and_command_mask, hrow, headerWord_toNat_eq_iff]
  · have hrow : 0xAA = (headerWord Config.sync 0 0).toNat := rfl
    rw [decode_receive_eq_ok_iff, headerWord_and_response_mask, hrow, headerWord_toNat_eq_iff]
    exact (and_iff_left rfl).symm

end Sys2Proof.Machine
end

section
/-! The acceptance of a command word (R26, R85, R87): what the step does with a word the host writes to CMD of an idle block. -/

namespace Sys2Proof.Machine

theorem writtenReg_cmd {p : Pins} (hwr : p.busWr = true) (hword : p.busAddr.toNat / 4 = 1) : writtenReg p = some .cmd := by
  have hat : regAt p.busAddr = some .cmd := (regAt_eq_of_word_eq (b := 0x04) hword).trans rfl
  rw [writtenReg, if_pos hwr, hat]

/-- A CMD write to an idle block is accepted in the cycle that handles the received byte (R26, R85). -/
theorem step_of_cmd_write {s : State} (hrst : s.pins.rst = false) (hst : s.st = .idle) (hwr : s.pins.busWr = true)
    (hword : s.pins.busAddr.toNat / 4 = 1) : step s = thenTick (acceptCommand s.pins.busWdata (receive s)) := by
  have hcmd := writtenReg_cmd hwr hword
  have hserved : s.served = receive s := by rw [State.served, statusWrite_of_ne (by simp [hcmd])]
  obtain ⟨hsame, -, -⟩ := receive_keeps s
  rw [step_of_not_rst hrst, hserved, blockCycle_of_idle _ (hsame.trans hst), idleCycle, if_pos hcmd]

theorem acceptCommand_of_ok {w : Word} {i : Instr} (h : decode .command (bytesOfWord w) = .ok i) (s : State) :
    acceptCommand w s = exec i { s with cmd := w } := by
  rw [acceptCommand, h]

theorem acceptCommand_of_error {w : Word} {e : DecodeError} (h : decode .command (bytesOfWord w) = .error e) (s : State) :
    acceptCommand w s = .next (illegalCommand w e { s with cmd := w }) := by
  rw [acceptCommand, h]

/-- Settles O6: the acceptance of a word that decodes is `exec` of its instruction. -/
theorem stepRunsTheCommandWord : Obligations.StepRunsTheCommandWord := by
  intro s i hrst hst hwr hword hdec
  rw [step_of_cmd_write hrst hst hwr hword, acceptCommand_of_ok hdec]

/-- The detail R87 gives a word that is no command. -/
theorem illegalDetail_of_error {w : Word} {e : DecodeError} (h : decodeCommand w = .error e) :
    illegalDetail e = if (cmdOp w).toNat = 0 ∨ 13 ≤ (cmdOp w).toNat then .badOp else .rsvdBits := by
  obtain ⟨hop, hbad⟩ | ⟨hop, -, hres⟩ | ⟨-, -, hok⟩ := decodeCommand_cases w
  · cases hbad.symm.trans h
    exact (if_pos (by unfold isLegalOp at hop; omega)).symm
  · cases hres.symm.trans h
    exact (if_neg (by unfold isLegalOp at hop; omega)).symm
  · cases hok.symm.trans h

/-- The error record of an illegal word, in a block that has nothing running to close (R212). -/
theorem illegalCommand_of_idle {s : State} (hst : s.st = .idle) (hrxw : s.rxw = false) (hscnt : s.scnt = 0) (w : Word)
    (e : DecodeError) :
    illegalCommand w e s =
      { s with
        opr := cmdOp w
        status := { s.status with done := true, err := .illegalCommand }
        errInfo := { detail := illegalDetail e, sub := 0, op := cmdOp w } } := by
  simp [illegalCommand, raiseError, beginCommand, ← hst, ← hrxw, ← hscnt]

/-- Settles O9: the word is accepted, and in an idle block its error record is all that the completion writes. -/
theorem illegalWordIsRefusedAtOnce : Obligations.IllegalWordIsRefusedAtOnce := by
  intro s hinv hrst hst hwr hword hno
  obtain ⟨e, he⟩ : ∃ e, decode .command (bytesOfWord s.pins.busWdata) = .error e := by
    cases h : decode .command (bytesOfWord s.pins.busWdata) with
    | ok i => exact absurd h (hno i)
    | error e => exact ⟨e, rfl⟩
  have hrxw := hinv.engine.rxw_eq_false hst
  have hscnt := hinv.engine.settleCount (by simp [hst])
  have hdetail := illegalDetail_of_error ((decode_command_bytesOfWord _).symm.trans he)
  have hrecord := illegalCommand_of_idle
    (s := { s with
      cmd := s.pins.busWdata, status := { s.status with stray := s.status.stray || s.pins.rxValid } })
    hst hrxw hscnt s.pins.busWdata e
  rw [hdetail] at hrecord
  rw [step_of_cmd_write hrst hst hwr hword, acceptCommand_of_error he, receive_of_window_closed hrxw]
  exact congrArg (fun t : State => Host.Outcome.next t.tick) hrecord

end Sys2Proof.Machine
end

section
/-! The checksum and the validator (R110, R116): the checksum as a sum in the ring of bytes, the verdict on a buffer, and what
VALIDATE answers. -/

namespace Sys2Proof.Machine

/-! ### The checksum (R110) -/

/-- The 8-bit accumulator: the checksum is the sum in the ring of bytes. -/
theorem checksum_eq_sum (bs : List Byte) : checksum bs = bs.sum := by
  induction bs with
  | nil => rfl
  | cons b bs ih => rw [checksum, ih, List.sum_cons]

theorem toNat_checksum (bs : List Byte) : (checksum bs).toNat = (bs.map BitVec.toNat).sum % 256 := by
  induction bs with
  | nil => rfl
  | cons b bs ih => rw [checksum, BitVec.toNat_add, ih, List.map_cons, List.sum_cons, Nat.add_mod_mod]

theorem sum_toNat_le (bs : List Byte) : (bs.map BitVec.toNat).sum ≤ 255 * bs.length := by
  have hbyte : ∀ n ∈ bs.map BitVec.toNat, n ≤ 255 := by
    intro n hn
    obtain ⟨b, -, rfl⟩ := List.mem_map.mp hn
    exact Nat.le_of_lt_succ b.isLt
  have hsum := List.sum_le_card_nsmul _ _ hbyte
  rwa [List.length_map, smul_eq_mul, Nat.mul_comm] at hsum

/-- A list sum over bytes that are read is the sum over their addresses. -/
theorem sum_map_readBytes {M : Type} [AddCommMonoid M] (f : Byte → M) (m : Memory) (a n : Nat) :
    ((m.readBytes a n).map f).sum = ∑ i ∈ Finset.range n, f (m.read (a + i)) := by
  induction n with
  | zero => rfl
  | succ n ih =>
    rw [Memory.readBytes_add, List.map_append, List.sum_append, ih, Finset.sum_range_succ]
    simp [Memory.readBytes]

theorem checksum_readBytes (m : Memory) (a n : Nat) :
    checksum (m.readBytes a n) = ∑ i ∈ Finset.range n, m.read (a + i) := by
  rw [checksum_eq_sum, ← sum_map_readBytes (fun b => b), List.map_id']

theorem toNat_checksum_readBytes (s : State) (base : Nat) : (checksum (s.mem.readBytes base 25)).toNat = sumOf s base := by
  rw [toNat_checksum, sum_map_readBytes, sumOf]

/-- The checksum that VALIDATE computes is that of the 25 bytes at the buffer's address (R116). -/
theorem checkVerdict_sum (s : State) (b : BufSel) : (checkVerdict s b).sum = checksum (s.mem.readBytes (bufferAt b) 25) := by
  cases b <;> rfl

theorem checkVerdict_rcv (s : State) (b : BufSel) : (checkVerdict s b).rcv = s.mem.read (bufferAt b + 25) := by
  cases b <;> rfl

/-- Settles O10: list sums of bytes, in the ring of bytes and in the naturals. -/
theorem checksumIsTheSumModulo256 : Obligations.ChecksumIsTheSumModulo256 := by
  intro bs
  refine ⟨toNat_checksum bs, ?_, fun hlen => ?_, fun s b => ?_⟩
  · rw [checksum_eq_sum, List.sum_eq_foldl]
  · have hle := sum_toNat_le bs
    omega
  · rw [checkVerdict_sum, toNat_checksum_readBytes]

/-! ### The verdict (R116) -/

theorem checkVerdict_ok_iff (s : State) (b : BufSel) :
    (checkVerdict s b).ok = true ↔ checksum (s.mem.readBytes (bufferAt b) 25) = s.mem.read (bufferAt b + 25) := by
  rw [← checkVerdict_sum, ← checkVerdict_rcv]
  exact beq_iff_eq

theorem checkVerdict_ok_iff_sum (s : State) (b : BufSel) :
    (checkVerdict s b).ok = true ↔
      ∑ i ∈ Finset.range 25, s.mem.read (bufferAt b + i) = s.mem.read (bufferAt b + 25) := by
  rw [checkVerdict_ok_iff, checksum_readBytes]

theorem isVerdict_checkVerdict (s : State) (b : BufSel) : isVerdict (checkVerdict s b) s (bufferAt b) := by
  refine ⟨by rw [checkVerdict_sum, toNat_checksum_readBytes], checkVerdict_rcv s b, ?_⟩
  rw [Bool.eq_iff_iff, decide_eq_true_iff, checkVerdict_ok_iff, checkVerdict_sum, checkVerdict_rcv]

theorem exec_validate (b : BufSel) (s : State) :
    exec (.validate b) s = .next (completeOk { beginCommand 11 s with chk := checkVerdict s b }) := rfl

theorem chk_of_exec_validate {b : BufSel} {s t : State} (h : exec (.validate b) s = .next t) : t.chk = checkVerdict s b := by
  cases h
  rfl

/-- Settles O16: VALIDATE writes the verdict and the completion record. -/
theorem validateReportsTheVerdict : Obligations.ValidateReportsTheVerdict := by
  intro b s
  exact ⟨_, exec_validate b s, isVerdict_checkVerdict s b, rfl⟩

/-- Sums whose terms agree but for one are equal exactly when that term agrees. -/
theorem sum_range_eq_iff_of_one {f g : Nat → Byte} {n k : Nat} (hk : k < n) (h : ∀ i, i < n → i ≠ k → f i = g i) :
    ∑ i ∈ Finset.range n, f i = ∑ i ∈ Finset.range n, g i ↔ f k = g k := by
  have hrest : ∑ i ∈ (Finset.range n).erase k, f i = ∑ i ∈ (Finset.range n).erase k, g i :=
    Finset.sum_congr rfl (fun i hi => h i (Finset.mem_range.mp (Finset.mem_of_mem_erase hi)) (Finset.ne_of_mem_erase hi))
  rw [← Finset.add_sum_erase _ f (Finset.mem_range.mpr hk), ← Finset.add_sum_erase _ g (Finset.mem_range.mpr hk), hrest,
    add_left_inj]

/-- Sums whose terms agree but for two are equal when those two have the same sum. -/
theorem sum_range_eq_of_two {f g : Nat → Byte} {n j k : Nat} (hj : j < n) (hk : k < n) (hjk : j ≠ k)
    (h : ∀ i, i < n → i ≠ k → i ≠ j → f i = g i) (hpair : f k + f j = g k + g j) :
    ∑ i ∈ Finset.range n, f i = ∑ i ∈ Finset.range n, g i := by
  have hjmem : j ∈ (Finset.range n).erase k := Finset.mem_erase.mpr ⟨hjk, Finset.mem_range.mpr hj⟩
  have hrest : ∑ i ∈ ((Finset.range n).erase k).erase j, f i = ∑ i ∈ ((Finset.range n).erase k).erase j, g i := by
    refine Finset.sum_congr rfl (fun i hi => ?_)
    obtain ⟨hij, hik, hin⟩ : i ≠ j ∧ i ≠ k ∧ i < n := by simpa using hi
    exact h i hin hik hij
  rw [← Finset.add_sum_erase _ f (Finset.mem_range.mpr hk), ← Finset.add_sum_erase _ g (Finset.mem_range.mpr hk),
    ← Finset.add_sum_erase _ f hjmem, ← Finset.add_sum_erase _ g hjmem, hrest, ← add_assoc, ← add_assoc, hpair]

/-- Settles O17: the bytes on which the buffers agree cancel from the two sums, which are taken in the ring of bytes. -/
theorem oneWrongByteIsDetected : Obligations.OneWrongByteIsDetected := by
  intro s s' t t' b k hk hdiff ht ht'
  rw [chk_of_exec_validate ht, chk_of_exec_validate ht']
  constructor
  · intro hsame hok
    rw [checkVerdict_ok_iff_sum] at hok
    rw [Bool.eq_false_iff, ne_eq, checkVerdict_ok_iff_sum]
    intro hok'
    obtain hk25 | rfl := Nat.lt_succ_iff_lt_or_eq.mp hk
    · refine hdiff ((sum_range_eq_iff_of_one hk25 (fun i hi hik => hsame i (by omega) hik)).mp ?_)
      rw [hok, hok', hsame 25 (by decide) hk25.ne']
    · have hsum : ∑ i ∈ Finset.range 25, s.mem.read (bufferAt b + i)
          = ∑ i ∈ Finset.range 25, s'.mem.read (bufferAt b + i) :=
        Finset.sum_congr rfl fun i hi =>
          have hi25 := Finset.mem_range.mp hi
          hsame i (by omega) hi25.ne
      exact hdiff (by rw [← hok, hsum, hok'])
  · intro j hj hk25 hjk hsame hcancel
    have hsum := sum_range_eq_of_two hj hk25 hjk (fun i hi => hsame i (by omega)) hcancel
    rw [Bool.eq_iff_iff, checkVerdict_ok_iff_sum, checkVerdict_ok_iff_sum, hsum, hsame 25 (by decide) hk25.ne' hj.ne']

end Sys2Proof.Machine
end

section
/-! The frame encoder (R111 to R115): the packer's bytes as a number, what a built frame and a set payload put in the buffers,
and what ENC_RAW and ENC_NUM answer. -/

namespace Sys2Proof.Machine

/-! ### The packer (R111) -/

theorem getD_leBytes (v : Word) {n i : Nat} (h : i < n) : (leBytes v n).getD i 0 = v.extractLsb' (8 * i) 8 := by
  induction n generalizing v i with
  | zero => omega
  | succ n ih =>
    cases i with
    | zero => rfl
    | succ i =>
      rw [leBytes, List.getD_cons_succ, ih _ (Nat.lt_of_succ_lt_succ h)]
      apply BitVec.eq_of_getLsbD_eq
      intro k hk
      rw [BitVec.getLsbD_extractLsb', BitVec.getLsbD_extractLsb', BitVec.getLsbD_ushiftRight,
        show 8 + (8 * i + k) = 8 * (i + 1) + k by omega]

/-- The first `n` bytes of a number are its remainder modulo 256 to the `n`. -/
theorem leNat_leBytes (v : Word) (n : Nat) : leNat (leBytes v n) = v.toNat % 256 ^ n := by
  induction n generalizing v with
  | zero => simp [leBytes, leNat, Nat.mod_one]
  | succ n ih =>
    have hlow : (v.extractLsb' 0 8).toNat = v.toNat % 256 := BitVec.extractLsb'_toNat ..
    have hhigh : (v >>> 8).toNat = v.toNat / 256 := (BitVec.toNat_ushiftRight ..).trans (Nat.shiftRight_eq_div_pow ..)
    rw [leBytes, leNat, ih, hlow, hhigh, Nat.pow_succ', Nat.mod_mul]

theorem leNat_eq_sum (bs : List Byte) : leNat bs = ∑ i ∈ Finset.range bs.length, (bs.getD i 0).toNat * 256 ^ i := by
  induction bs with
  | nil => rfl
  | cons b bs ih =>
    rw [leNat, ih, List.length_cons, Finset.sum_range_succ', Finset.mul_sum, Nat.add_comm]
    congr 1
    · exact Finset.sum_congr rfl (fun i _ => by rw [List.getD_cons_succ, Nat.pow_succ]; ring)
    · simp

/-- `nbytes` is the least number of bytes, at least one, that holds the value (R111). -/
theorem nbytes_spec (v : Word) :
    1 ≤ nbytes v ∧ v.toNat < 256 ^ nbytes v ∧ (nbytes v = 1 ∨ 256 ^ (nbytes v - 1) ≤ v.toNat) := by
  have hv := v.isLt
  unfold nbytes
  split_ifs <;> omega

theorem isNumberPayload_numericPayload (v : Word) : isNumberPayload (numericPayload v) v.toNat := by
  obtain ⟨hpos, hlt, hmin⟩ := nbytes_spec v
  rw [isNumberPayload, ← leNat_eq_sum, length_numericPayload, numericPayload, leNat_leBytes, Nat.mod_eq_of_lt hlt]
  exact ⟨hpos, rfl, hmin⟩

/-- Settles O11: byte by byte by recursion on the number of bytes, and `nbytes` by the four sizes. -/
theorem packerIsMinimalAndLittleEndian : Obligations.PackerIsMinimalAndLittleEndian := by
  intro v
  exact ⟨rfl, fun n i => getD_leBytes v, length_leBytes v, isNumberPayload_numericPayload v⟩

/-! ### A built frame and a set payload (R112, R114) -/

/-- Zeros behind a list are what the list reads as there. -/
theorem getD_append_zeros (bs : List Byte) (n i : Nat) : (bs ++ List.replicate n 0).getD i 0 = bs.getD i 0 := by
  obtain hi | hi := Nat.lt_or_ge i bs.length
  · exact List.getD_append _ _ _ _ hi
  · rw [List.getD_append_right _ _ _ _ hi, List.getD_eq_default _ _ hi]
    simp

theorem getD_frameBody (dev sub : Byte) (pay : List Byte) (i : Nat) :
    (frameBody dev sub pay).getD (3 + i) 0 = pay.getD i 0 := by
  rw [frameBody, List.append_assoc, List.getD_append_right _ _ _ _ (Nat.le_add_right 3 i), getD_append_zeros]
  exact congrArg (pay.getD · 0) (Nat.add_sub_cancel_left 3 i)

/-- A frame that stands in TXBUF, byte by byte. -/
theorem holdsFrame_of_txFrame {t : State} {dev sub : Byte} {pay : List Byte} (hlen : pay.length ≤ 22)
    (h : t.txFrame = frameBytes dev sub pay) : t.holdsFrame dev sub pay := by
  have hsplit : t.mem.readBytes 0x80 25 ++ [t.mem.read (0x80 + 25)] =
      frameBody dev sub pay ++ [checksum (frameBody dev sub pay)] := (Memory.readBytes_add t.mem 0x80 25 1).symm.trans h
  obtain ⟨hbody, hlast⟩ := List.append_inj' hsplit rfl
  have hbyte : ∀ i, i < 25 → t.txByte i = (frameBody dev sub pay).getD i 0 := fun i hi => by
    rw [← hbody, Memory.getD_readBytes _ _ _ _ hi]
    rfl
  refine ⟨hbyte 0 (by decide), hbyte 1 (by decide), hbyte 2 (by decide), fun i hi => ?_, fun i hi hi22 => ?_, ?_⟩
  · rw [hbyte _ (by omega), getD_frameBody]
  · rw [hbyte _ (by omega), getD_frameBody, List.getD_eq_default _ _ hi]
  · rw [← toNat_checksum_readBytes, hbody]
    exact congrArg BitVec.toNat (List.singleton_inj.mp hlast)

/-- A payload that stands in PAYBUF with zeros behind it, byte by byte. -/
theorem holdsPayload_of_payBytes {t : State} {pay : List Byte} (hle : pay.length ≤ 22) (hlen : t.paylen.toNat = pay.length)
    (h : t.payBytes 22 = pay ++ List.replicate (22 - pay.length) 0) : t.holdsPayload pay := by
  have hbyte : ∀ i, i < 22 → t.payByte i = pay.getD i 0 := fun i hi => by
    rw [← getD_append_zeros pay (22 - pay.length), ← h, State.payBytes, Memory.getD_readBytes _ _ _ _ hi]
    rfl
  exact ⟨hlen, fun i hi => hbyte i (by omega), fun i hi hi22 => by rw [hbyte i hi22, List.getD_eq_default _ _ hi]⟩

/-- Settles O12: the frame stands in TXBUF, and the write ends there. -/
theorem buildFrameWritesEveryTxByte : Obligations.BuildFrameWritesEveryTxByte := by
  intro dev sub pay s hlen
  exact ⟨holdsFrame_of_txFrame hlen (txFrame_buildFrame dev sub pay s hlen),
    read_buildFrame_outside dev sub pay s hlen, rfl⟩

/-! ### ENC_RAW and ENC_NUM (R113, R114) -/

/-- R7's SUBSET. -/
abbrev legalSubs : List Byte := [0x20, 0x21, 0x22, 0x23, 0x24, 0x26]

theorem ofByte_eq_none_iff (sub : Byte) : SubAddr.ofByte sub = none ↔ sub ∉ legalSubs := by
  have hcodes : legalSubs = SubAddr.all.map SubAddr.code := rfl
  rw [hcodes, SubAddr.ofByte, List.find?_eq_none]
  simp only [beq_iff_eq, List.mem_map, not_exists, not_and]

section
variable {sub : Byte} {s : State}

theorem exec_encRaw_of_badSub (h : sub ∉ legalSubs) :
    exec (.encRaw sub) s = .next (raiseError .illegalCommand .badSub sub (beginCommand 1 s)) :=
  if_pos ((ofByte_eq_none_iff sub).mpr h)

theorem exec_encRaw_of_paylen (h : sub ∈ legalSubs) (hlen : 22 < s.paylen.toNat) :
    exec (.encRaw sub) s = .next (raiseError .encodingError .paylen sub (beginCommand 1 s)) :=
  (if_neg fun hnone => (ofByte_eq_none_iff sub).mp hnone h).trans (if_pos hlen)

theorem exec_encRaw_of_legal (h : sub ∈ legalSubs) (hlen : ¬ 22 < s.paylen.toNat) :
    exec (.encRaw sub) s = .next (completeOk (buildFromPayload sub (beginCommand 1 s))) :=
  (if_neg fun hnone => (ofByte_eq_none_iff sub).mp hnone h).trans (if_neg hlen)

theorem exec_encNum_of_badSub (h : sub ∉ legalSubs) :
    exec (.encNum sub) s = .next (raiseError .illegalCommand .badSub sub (beginCommand 2 s)) :=
  if_pos ((ofByte_eq_none_iff sub).mpr h)

theorem exec_encNum_of_legal (h : sub ∈ legalSubs) :
    exec (.encNum sub) s = .next (completeOk (buildNumeric sub s.regs.arg (beginCommand 2 s))) :=
  if_neg fun hnone => (ofByte_eq_none_iff sub).mp hnone h

end

/-- Settles O13: the two checks in their order, then the frame of the payload in PAYBUF. -/
theorem encRawBuildsTheFrame : Obligations.EncRawBuildsTheFrame := by
  intro sub s
  split_ifs with hsub hlen
  · exact ⟨_, exec_encRaw_of_paylen hsub hlen, rfl⟩
  · have hle : (s.payBytes s.paylen.toNat).length ≤ 22 := by
      rw [State.payBytes, Memory.length_readBytes]
      exact Nat.le_of_not_lt hlen
    exact ⟨_, exec_encRaw_of_legal hsub hlen, holdsFrame_of_txFrame hle (txFrame_buildFrame _ _ _ _ hle),
      read_buildFrame_outside _ _ _ _ hle, rfl⟩
  · exact ⟨_, exec_encRaw_of_badSub hsub, rfl⟩

theorem length_numericPayload_le (v : Word) : (numericPayload v).length ≤ 22 := by
  have hle := nbytes_le v
  rw [length_numericPayload]
  omega

theorem holdsFrame_buildNumeric (sub : Byte) (v : Word) (s : State) :
    (buildNumeric sub v s).holdsFrame s.regs.devAddr sub (numericPayload v) :=
  holdsFrame_of_txFrame (length_numericPayload_le v) (txFrame_buildFrame _ _ _ _ (length_numericPayload_le v))

theorem holdsPayload_buildNumeric (sub : Byte) (v : Word) (s : State) :
    (buildNumeric sub v s).holdsPayload (numericPayload v) := by
  have hle := length_numericPayload_le v
  refine holdsPayload_of_payBytes hle ?_ ?_
  · rw [buildNumeric, buildFrame_paylen, setPayload_paylen, BitVec.toNat_ofNat]
    omega
  · rw [← payBytes_setPayload_all _ s hle]
    exact Memory.readBytes_congr _ _ _ _ (fun i _ => read_buildFrame_outside _ _ _ _ hle _ (by unfold Config.payBase; omega))

/-- Building a numeric frame leaves every byte outside TXBUF and PAYBUF (R114). -/
theorem read_buildNumeric_outside (sub : Byte) (v : Word) (s : State) {a : Nat}
    (ha : a < 0x80 ∨ 0x9A ≤ a ∧ a < 0xC0 ∨ 0xD6 ≤ a) :
    (buildNumeric sub v s).mem.read a = s.mem.read a := by
  have hle := length_numericPayload_le v
  rw [buildNumeric, read_buildFrame_outside _ _ _ _ hle a (by omega), read_setPayload_outside _ _ hle a (by omega)]

/-- Settles O14: the check of SUB, then the frame of ARG's own bytes. -/
theorem encNumPacksAndBuilds : Obligations.EncNumPacksAndBuilds := by
  intro sub s
  split_ifs with hsub
  · refine ⟨_, exec_encNum_of_legal hsub,
      ⟨numericPayload s.regs.arg, isNumberPayload_numericPayload _, ?_, ?_⟩, ?_, rfl⟩
    · exact holdsPayload_buildNumeric sub s.regs.arg (beginCommand 2 s)
    · exact holdsFrame_buildNumeric sub s.regs.arg (beginCommand 2 s)
    · exact fun i hi => read_buildNumeric_outside sub s.regs.arg (beginCommand 2 s) (by unfold Config.rxBase; omega)
  · exact ⟨_, exec_encNum_of_badSub hsub, rfl⟩

/-- The checksum of a frame in TXBUF is its last byte (R115). -/
theorem checkVerdict_ok_of_holdsFrame {t : State} {dev sub : Byte} {pay : List Byte} (h : t.holdsFrame dev sub pay) :
    (checkVerdict t .tx).ok = true := by
  obtain ⟨-, -, -, -, -, hsum⟩ := h
  rw [checkVerdict_ok_iff]
  exact BitVec.eq_of_toNat_eq ((toNat_checksum_readBytes t _).trans hsum.symm)

/-- A build that ends without an error leaves a frame in TXBUF (R113, R114). -/
theorem holdsFrame_of_built {sub : Byte} {s t : State} (h : exec (.encRaw sub) s = .next t ∨ exec (.encNum sub) s = .next t)
    (hok : t.status.err = .ok) : ∃ dev pay, t.holdsFrame dev sub pay := by
  obtain hraw | hnum := h
  · obtain ⟨t', ht', hframe⟩ := encRawBuildsTheFrame sub s
    cases hraw.symm.trans ht'
    split_ifs at hframe
    · exact absurd hok (by simp [hframe])
    · obtain ⟨hholds, -⟩ := hframe
      exact ⟨_, _, hholds⟩
    · exact absurd hok (by simp [hframe])
  · obtain ⟨t', ht', hframe⟩ := encNumPacksAndBuilds sub s
    cases hnum.symm.trans ht'
    split_ifs at hframe
    · obtain ⟨⟨pay, -, -, hholds⟩, -⟩ := hframe
      exact ⟨_, pay, hholds⟩
    · exact absurd hok (by simp [hframe])

/-- Settles O15: the frame that a successful build leaves ends in its checksum, which is what VALIDATE judges. -/
theorem builtFrameValidates : Obligations.BuiltFrameValidates := by
  intro sub s t u hbuilt hok hval
  obtain ⟨dev, pay, hframe⟩ := holdsFrame_of_built hbuilt hok
  rw [chk_of_exec_validate hval]
  exact checkVerdict_ok_of_holdsFrame hframe

end Sys2Proof.Machine
end

section
/-! The decoder and the unpacker (R130 to R136): a field as the sum of its bytes, what UNPACK and DECODE answer, and a response
that is the frame ENC_NUM built. -/

namespace Sys2Proof.Machine

/-! ### Fields (R130) -/

theorem field_eq_readBytes (s : State) (b : BufSel) (off w : Nat) :
    s.field b off w = s.mem.readBytes (bufferAt b + off) w := by
  cases b <;> rfl

theorem leNat_readBytes (m : Memory) (a n : Nat) :
    leNat (m.readBytes a n) = ∑ i ∈ Finset.range n, (m.read (a + i)).toNat * 2 ^ (8 * i) := by
  rw [leNat_eq_sum, Memory.length_readBytes]
  refine Finset.sum_congr rfl (fun i hi => ?_)
  rw [Memory.getD_readBytes _ _ _ _ (Finset.mem_range.mp hi), Nat.pow_mul]

theorem toNat_leValue_eq_sum (s : State) (b : BufSel) (off : Nat) {w : Nat} (hw : w ≤ 4) :
    (leValue s b off w).toNat = ∑ i ∈ Finset.range w, (s.mem.read (bufferAt b + off + i)).toNat * 2 ^ (8 * i) := by
  rw [toNat_leValue s b off hw, field_eq_readBytes, leNat_readBytes]

/-- Settles O18: a field is read byte by byte, and its number is that of the bytes read. -/
theorem fieldIsLittleEndian : Obligations.FieldIsLittleEndian := by
  intro s b off w _ hw _
  refine ⟨toNat_leValue_eq_sum s b off hw, fun s' hsame => ?_⟩
  rw [leValue, leValue, field_eq_readBytes, field_eq_readBytes, Memory.readBytes_congr _ _ _ _ hsame]

/-! ### UNPACK (R134) -/

theorem fieldInside_iff (off wid : Nat) : fieldInside off wid = true ↔ 1 ≤ wid ∧ wid ≤ 4 ∧ off + wid ≤ 26 := by
  simp only [fieldInside, Bool.and_eq_true, decide_eq_true_iff, and_assoc]
  rfl

theorem exec_unpack_of_inside {off wid : Nat} (h : fieldInside off wid = true) (b : BufSel) (s : State) :
    exec (.unpack b off wid) s = .next (completeOk { beginCommand 12 s with result := leValue s b off wid }) :=
  if_pos h

theorem exec_unpack_of_outside {off wid : Nat} (h : ¬ fieldInside off wid = true) (b : BufSel) (s : State) :
    exec (.unpack b off wid) s = .next (raiseError .argumentError .badField 0 (beginCommand 12 s)) :=
  if_neg h

/-- Settles O22: the operand check, then the field's number. -/
theorem unpackExtractsTheField : Obligations.UnpackExtractsTheField := by
  intro b off wid s
  split_ifs with hbad
  · exact ⟨_, exec_unpack_of_outside (by rw [fieldInside_iff]; omega) b s, rfl⟩
  · exact ⟨_, exec_unpack_of_inside ((fieldInside_iff ..).mpr (by omega)) b s,
      toNat_leValue_eq_sum s b off (by omega), rfl⟩

/-! ### The fields of a response (R131, R133, R136) -/

theorem outputOn_iff (b : Byte) : outputOn b = true ↔ ¬(b = 0 ∨ b = 128) := by
  simp [outputOn, Config.stateOff]

/-- Settles O21: the two bytes that mean OFF, compared as numbers. -/
theorem outputOnExceptForZeroAnd128 : Obligations.OutputOnExceptForZeroAnd128 := by
  intro b
  rw [outputOn_iff, ← BitVec.toNat_inj, ← BitVec.toNat_inj]
  rfl

theorem toNat_leValue_rx (s : State) (off : Nat) {w : Nat} (hw : w ≤ 4) :
    (leValue s .rx off w).toNat = ∑ i ∈ Finset.range w, (s.rxByte (off + i)).toNat * 2 ^ (8 * i) := by
  rw [toNat_leValue_eq_sum s .rx off hw]
  exact Finset.sum_congr rfl (fun i _ => by rw [Nat.add_assoc]; rfl)

theorem toNat_leValue_two (s : State) (off : Nat) :
    ((leValue s .rx off 2).setWidth 16).toNat = (s.rxByte off).toNat + (s.rxByte (off + 1)).toNat * 2 ^ 8 := by
  have hsum : (leValue s .rx off 2).toNat = (s.rxByte off).toNat + (s.rxByte (off + 1)).toNat * 2 ^ 8 := by
    rw [toNat_leValue_rx s off (by decide)]
    simp [Finset.sum_range_succ]
  have hlow := (s.rxByte off).isLt
  have hhigh := (s.rxByte (off + 1)).isLt
  rw [BitVec.toNat_setWidth, hsum]
  omega

theorem toNat_leValue_four (s : State) (off : Nat) :
    (leValue s .rx off 4).toNat = (s.rxByte off).toNat + (s.rxByte (off + 1)).toNat * 2 ^ 8
      + (s.rxByte (off + 2)).toNat * 2 ^ 16 + (s.rxByte (off + 3)).toNat * 2 ^ 24 := by
  rw [toNat_leValue_rx s off (by decide)]
  simp [Finset.sum_range_succ]

theorem isDecoded_decodedFields (s : State) : isDecoded (decodedFields s) s := by
  refine ⟨rfl, rfl, rfl, rfl, ?_, ?_, toNat_leValue_two s 3, toNat_leValue_four s 5, toNat_leValue_two s 10,
    toNat_leValue_four s 12, toNat_leValue_four s 16⟩
  · exact beq_eq_decide _ _
  · rw [Bool.eq_iff_iff, decide_eq_true_iff]
    exact outputOn_iff _

/-! ### DECODE (R131, R132) -/

section
variable {s : State}

theorem exec_decode_of_failure {t : State} {d : Detail} (h : decodeFrame (beginCommand 3 s) = (t, some d)) :
    exec .decode s = .next (raiseError .frameError d 0 t) := by
  simp only [exec, execDecode, h]

theorem decodeFrame_of_no_sync (hlen : s.rxlen.toNat = 26) (hsync : s.rxByte 0 ≠ 0xAA) :
    decodeFrame s = (judgedState s, some .sync) := by
  rw [decodeFrame_eq, if_neg (not_not_intro hlen), if_pos hsync]

theorem decodeFrame_of_good (hlen : s.rxlen.toNat = 26) (hsync : s.rxByte 0 = 0xAA)
    (hchk : ¬(s.regs.chkEn = true ∧ (checkVerdict s .rx).ok = false)) : decodeFrame s = (goodState s, none) := by
  rw [decodeFrame_eq, if_neg (not_not_intro hlen), if_neg (not_not_intro hsync), if_neg hchk]

theorem exec_decode_of_good {t : State} (h : decodeFrame (beginCommand 3 s) = (t, none)) :
    exec .decode s = .next (completeOk t) := by
  simp only [exec, execDecode, h]

end

/-- Settles O20: the three checks in their order, each with the state it leaves, then the fields. -/
theorem decodeReadsTheResponse : Obligations.DecodeReadsTheResponse := by
  intro s
  have hverdict := isVerdict_checkVerdict s .rx
  obtain ⟨hlen, h⟩ | ⟨hlen, hsync, h⟩ | ⟨hlen, hsync, hen, hbad, h⟩ | ⟨hlen, hsync, hgood, h⟩ :=
    decodeFrame_cases (beginCommand 3 s)
  · exact ⟨_, exec_decode_of_failure h, (if_pos hlen).mpr rfl⟩
  · exact ⟨_, exec_decode_of_failure h, (if_neg (not_not_intro hlen)).mpr ⟨hverdict, (if_pos hsync).mpr rfl⟩⟩
  · refine ⟨_, exec_decode_of_failure h, (if_neg (not_not_intro hlen)).mpr ⟨hverdict, ?_⟩⟩
    exact (if_neg (not_not_intro hsync)).mpr ((if_pos ⟨hen, hbad⟩).mpr rfl)
  · refine ⟨_, exec_decode_of_good h, (if_neg (not_not_intro hlen)).mpr ⟨hverdict, ?_⟩⟩
    exact (if_neg (not_not_intro hsync)).mpr ((if_neg hgood).mpr ⟨isDecoded_decodedFields s, rfl⟩)

/-! ### A frame received back (R135) -/

theorem rxByte_of_echo {t u : State} (h : u.rxFrame = t.txFrame) {i : Nat} (hi : i < 26) :
    u.rxByte i = t.txByte i := by
  have hbyte := congrArg (fun bs : List Byte => bs.getD i 0) h
  exact (Memory.getD_readBytes u.mem Config.rxBase 26 i hi).symm.trans
    (hbyte.trans (Memory.getD_readBytes t.mem Config.txBase 26 i hi))

/-- The checksum of a frame in TXBUF is that of its copy in RXBUF. -/
theorem checkVerdict_of_echo {t u : State} (h : u.rxFrame = t.txFrame) : checkVerdict u .rx = checkVerdict t .tx := by
  have hbody : u.field .rx 0 25 = t.field .tx 0 25 := by
    rw [field_eq_readBytes, field_eq_readBytes]
    have hsplit : u.mem.readBytes 0xA0 25 ++ u.mem.readBytes (0xA0 + 25) 1 =
        t.mem.readBytes 0x80 25 ++ t.mem.readBytes (0x80 + 25) 1 :=
      (Memory.readBytes_add u.mem 0xA0 25 1).symm.trans (h.trans (Memory.readBytes_add t.mem 0x80 25 1))
    exact List.append_inj_left' hsplit rfl
  have hlast : u.mem.read (bufBase .rx + 25) = t.mem.read (bufBase .tx + 25) :=
    rxByte_of_echo h (by decide)
  simp only [checkVerdict, Config.checksumAt, hbody, hlast]

/-- What a successful ENC_NUM leaves in TXBUF (R114). -/
theorem holdsFrame_of_encNum {sub : Byte} {s t : State} (h : exec (.encNum sub) s = .next t) (hok : t.status.err = .ok) :
    t.holdsFrame s.regs.devAddr sub (numericPayload s.regs.arg) := by
  by_cases hsub : sub ∈ legalSubs
  · cases (exec_encNum_of_legal hsub).symm.trans h
    exact holdsFrame_buildNumeric sub s.regs.arg (beginCommand 2 s)
  · cases (exec_encNum_of_badSub hsub).symm.trans h
    cases hok

/-- A payload in a frame is followed by zeros, which its bytes read past their end as well (R80). -/
theorem State.holdsFrame.payload {t : State} {dev sub : Byte} {pay : List Byte} (h : t.holdsFrame dev sub pay) {i : Nat}
    (hi : i < 22) : t.txByte (3 + i) = pay.getD i 0 := by
  obtain ⟨-, -, -, hpay, hzero, -⟩ := h
  obtain hin | hout := Nat.lt_or_ge i pay.length
  · exact hpay i hin
  · rw [hzero i hout hi, List.getD_eq_default _ _ hout]

/-- Four bytes hold every word, whatever the length of its payload (R111, R135). -/
theorem sum_numericPayload (v : Word) :
    ∑ i ∈ Finset.range 4, ((numericPayload v).getD i 0).toNat * 2 ^ (8 * i) = v.toNat := by
  obtain ⟨-, hsum, -⟩ := isNumberPayload_numericPayload v
  have hzero : ∀ i ≥ (numericPayload v).length, ((numericPayload v).getD i 0).toNat * 256 ^ i = 0 := fun i hi => by
    rw [List.getD_eq_default _ _ hi]
    exact Nat.zero_mul _
  have hlen : (numericPayload v).length ≤ 4 := (length_numericPayload v).le.trans (nbytes_le v)
  simp only [Nat.pow_mul]
  exact (Finset.eventually_constant_sum hzero hlen).trans hsum.symm

/-- Settles O23: the copy in RXBUF starts with the sync byte and ends in its checksum, so it decodes; its bytes 3 to 6 are ARG. -/
theorem echoedFrameGivesBackItsValue : Obligations.EchoedFrameGivesBackItsValue := by
  intro sub s t u henc hok hecho hlen
  have hframe := holdsFrame_of_encNum henc hok
  have ⟨hsync, hdev, hsub, _⟩ := hframe
  have hbyte {i : Nat} (hi : i < 26) : u.rxByte i = t.txByte i := rxByte_of_echo hecho hi
  have hchk : (checkVerdict u .rx).ok = true := by
    rw [checkVerdict_of_echo hecho]
    exact checkVerdict_ok_of_holdsFrame hframe
  have hgood : decodeFrame (beginCommand 3 u) = (goodState (beginCommand 3 u), none) :=
    decodeFrame_of_good (s := beginCommand 3 u) (congrArg BitVec.toNat hlen) ((hbyte (by decide)).trans hsync)
      (fun h => Bool.eq_false_iff.mp h.2 hchk)
  refine ⟨_, _, exec_decode_of_good hgood, rfl, (hbyte (by decide)).trans hsub, (hbyte (by decide)).trans hdev,
    exec_unpack_of_inside rfl .rx _, rfl, ?_⟩
  apply BitVec.eq_of_toNat_eq
  have hvalue : (leValue u .rx 3 4).toNat = s.regs.arg.toNat := by
    rw [toNat_leValue_rx u 3 (by decide), ← sum_numericPayload s.regs.arg]
    refine Finset.sum_congr rfl (fun i hi => ?_)
    have hi4 := Finset.mem_range.mp hi
    rw [hbyte (by omega), hframe.payload (by omega)]
  exact hvalue

end Sys2Proof.Machine
end

section
/-! A response without the sync byte (R131, R155, R159, R171, R190): the received byte that completes it, the edge at which it ends
the exchange, and what the waiting command makes of it. -/

namespace Sys2Proof.Machine

/-! ### The byte that completes the response (R153) -/

/-- The state with a complete response: what a received byte, or the last byte sent, can change of `s`. -/
def State.withResponse (mem : Memory) (stray : Bool) (idx : BitVec 5) (s : State) : State :=
  { s with mem := mem, rxlen := 26, status := { s.status with stray := stray }, txIdx := idx }

theorem byteTaken_withResponse (mem : Memory) (stray : Bool) (idx : BitVec 5) (s : State) :
    byteTaken (s.withResponse mem stray idx) = s.withResponse mem stray (idx + 1) := rfl

/-- What this cycle's byte leaves behind when it completes the response or finds it complete: at most RXBUF[25] and STRAY. -/
theorem receive_of_completing {s : State} (hwf : s.mem.wf = true) (hopen : s.rxw = true)
    (h : (s.rxlen = 25 ∧ s.pins.rxValid = true) ∨ s.rxlen = 26) :
    ∃ mem stray, receive s = s.withResponse mem stray s.txIdx ∧
      mem.wf = true ∧ mem.read (0xA0 + 25) = (if s.rxlen = 25 then s.pins.rxData else s.rxByte 25) ∧
      ∀ i, i < 25 → mem.read (0xA0 + i) = s.rxByte i := by
  obtain ⟨hlen, hvalid⟩ | hlen := h
  · obtain ⟨hno, -⟩ | ⟨-, -, -, e⟩ | ⟨-, hfull, -⟩ := receive_cases s
    · exact absurd hvalid (by simp [hno])
    · refine ⟨s.mem.write (0xA0 + 25) s.pins.rxData, s.status.stray, ?_, Memory.wf_write _ _ _ hwf, ?_, fun i hi => ?_⟩
      · rw [e, hlen]
        rfl
      · rw [Memory.read_write, if_pos ⟨rfl, isBufferByte_rx (by decide)⟩, if_pos hlen]
      · rw [Memory.read_write, if_neg (by omega)]
        rfl
    · exact absurd ⟨hopen, by simp [hlen]⟩ hfull
  · have hkept : s.mem.read (0xA0 + 25) = (if s.rxlen = 25 then s.pins.rxData else s.rxByte 25) := by
      rw [if_neg (by simp [hlen])]
      rfl
    obtain ⟨-, e⟩ | ⟨-, -, hlt, -⟩ | ⟨-, -, e⟩ := receive_cases s
    · exact ⟨s.mem, s.status.stray, by rw [e, State.withResponse, ← hlen], hwf, hkept, fun i _ => rfl⟩
    · exact absurd hlt (by simp [hlen])
    · exact ⟨s.mem, true, by rw [e, State.withResponse, ← hlen], hwf, hkept, fun i _ => rfl⟩

/-! ### The edge that ends the exchange (R155) -/

/-- A buffer without the sync byte is no frame; the waiting command is handed it all the same (R131, R159). -/
theorem engineCycle_of_no_sync {s : State} (hst : s.st = .rx) (hlnk : s.pins.lnkErr = false) (hlen : s.rxlen.toNat = 26)
    (hsync : s.rxByte 0 ≠ 0xAA) : engineCycle s = .next (exchangeOk s) := by
  have hdec : decode .receive s.rxFrame = .error .notSync := if_neg hsync
  have hcomplete : s.rxlen.toNat = Config.frameLen := hlen
  have hreceive : engineCycle s = receiveCycle s := by rw [engineCycle, hst]
  rw [hreceive, receiveCycle, if_neg (by simp [hlnk]), if_pos hcomplete, answerCycle, hdec]

/-- In a memory in canonical form the header that stands in a buffer is written back without a trace. -/
theorem putHeader_eq_self {s : State} (hwf : s.mem.wf = true) {base : Nat} {b0 b1 b2 : Byte} (h0 : s.mem.read base = b0)
    (h1 : s.mem.read (base + 1) = b1) (h2 : s.mem.read (base + 2) = b2) : putHeader base b0 b1 b2 s = s := by
  have hmem : (putHeader base b0 b1 b2 s).mem = s.mem :=
    Memory.eq_of_read _ _ (Memory.wf_writeBytes _ _ _ hwf) hwf (putHeader_standing h0 h1 h2).memory
  exact congrArg (fun m => { s with mem := m }) hmem

/-- Whatever stands in TXBUF, its transmission is the same cycle (R159). -/
theorem sendCycle_of_wf {s : State} (hst : s.st = .tx) (hwf : s.mem.wf = true) : sendCycle s = .next (txCycle s) := by
  unfold sendCycle
  split
  case h_1 i hi =>
    obtain ⟨hsync, a, hcode, rfl⟩ := header_of_decodeCommandFrame (b0 := s.mem.read Config.txBase) hi
    rw [exec_ofFrame, transmitFrame, if_pos hst, putHeader_eq_self hwf hsync rfl hcode]
  case h_2 => rfl

/-- The last byte is taken with the response complete (R155). -/
theorem engineCycle_of_last_byte {s : State} (hst : s.st = .tx) (hwf : s.mem.wf = true) (hlnk : s.pins.lnkErr = false)
    (hready : s.pins.txReady = true) (hidx : s.txIdx = 25) (hlen : s.rxlen.toNat = 26) :
    engineCycle s = .next (exchangeOk (byteTaken s)) := by
  have hsend : engineCycle s = .next (txCycle s) := by rw [engineCycle, hst, ← sendCycle_of_wf hst hwf]
  rw [hsend]
  obtain ⟨hfault, -⟩ | ⟨-, hno, -⟩ | ⟨-, -, hmore, -⟩ | ⟨-, -, -, hwait, -⟩ | ⟨-, -, -, -, e⟩ := txCycle_cases s
  · exact absurd hfault (by simp [hlnk])
  · exact absurd hno (by simp [hready])
  · exact absurd (by simp [hidx]) hmore
  · exact absurd hlen hwait
  · rw [e]

/-- A response without the sync byte is handed to the waiting command at the edge that completes it in RX, or that takes the
last byte in TX. -/
theorem step_of_no_sync {s : State} (hinv : s.Inv) (hquiet : hostQuiet s.pins = true) (hlnk : s.pins.lnkErr = false)
    (hsync : s.rxByte 0 ≠ 0xAA) (hlen : (s.rxlen = 25 ∧ s.pins.rxValid = true) ∨ (s.st = .tx ∧ s.rxlen = 26))
    (hst : s.st = .rx ∨ (s.st = .tx ∧ s.pins.txReady = true ∧ s.txIdx = 25)) :
    ∃ mem stray idx,
      step s = .next (exchangeOk (s.withResponse mem stray idx)).tick ∧
      mem.read (0xA0 + 25) = (if s.rxlen = 25 then s.pins.rxData else s.rxByte 25) ∧
      ∀ i, i < 25 → mem.read (0xA0 + i) = s.rxByte i := by
  have hopen : s.rxw = true := hinv.engine.window.mpr (hst.symm.imp_left And.left)
  obtain ⟨mem, stray, hrecv, hwf, hlast, hbytes⟩ := receive_of_completing hinv.memory hopen (hlen.imp_right And.right)
  obtain ⟨hrst, hwr⟩ : s.pins.rst = false ∧ s.pins.busWr = false := by simpa [hostQuiet] using hquiet
  have hstep := step_of_no_write hrst (by simp [writtenReg, hwr])
  have hstill : (s.withResponse mem stray s.txIdx).rxByte 0 ≠ 0xAA :=
    fun h => hsync ((hbytes 0 (by decide)).symm.trans h)
  obtain hrx | ⟨htx, hready, hidx⟩ := hst
  · refine ⟨mem, stray, s.txIdx, ?_, hlast, hbytes⟩
    have hend := engineCycle_of_no_sync (s := s.withResponse mem stray s.txIdx) hrx hlnk rfl hstill
    rw [hstep, hrecv, hend, thenTick]
  · refine ⟨mem, stray, s.txIdx + 1, ?_, hlast, hbytes⟩
    have hend := engineCycle_of_last_byte (s := s.withResponse mem stray s.txIdx) htx hwf hlnk hready hidx rfl
    rw [hstep, hrecv, hend, byteTaken_withResponse, thenTick]

/-! ### What the waiting command makes of it (R131, R159, R171, R190) -/

theorem exchangeOk_of_xfer {s : State} (h : s.opr = 4) : exchangeOk s = completeOk { s with rxw := false } := by
  simp only [exchangeOk, h]
  rfl

/-- The class of a failed decode: a ramp's is a communication error (90_conflicts.md C4). -/
def decodeFailureClass (opr : BitVec 4) : ErrClass := if opr = 10 then .communicationError else .frameError

theorem exchangeOk_of_no_sync {s : State} {a : SubAddr} (ha : frameSub s.opr = some a) (hlen : s.rxlen = 26)
    (hsync : s.rxByte 0 ≠ 0xAA) :
    exchangeOk s = raiseError (decodeFailureClass s.opr) .sync a.code (judgedState { s with rxw := false }) := by
  have hdec : decodeFrame { s with rxw := false } = (judgedState { s with rxw := false }, some .sync) :=
    decodeFrame_of_no_sync (s := { s with rxw := false }) (congrArg BitVec.toNat hlen) hsync
  unfold frameSub at ha
  obtain ⟨b, hb, e⟩ | ⟨hnone, hop, e⟩ | ⟨hnone, hop, -⟩ := exchangeOk_cases s
  · have hramp : s.opr ≠ 10 := by
      intro hop
      rw [hop] at hb
      cases hb
    simp only [hb, Option.some.injEq] at ha
    rw [e, singleShotAnswered, hdec, decodeFailureClass, if_neg hramp, ha]
  · simp only [hnone, if_pos hop, Option.some.injEq] at ha
    rw [e, rampAnswered, hdec, decodeFailureClass, if_pos hop, ← ha]
  · simp only [hnone, if_neg hop] at ha
    cases ha

/-- A link command is XFER or builds its own frame (R86, R89). -/
theorem frameSub_of_linkCommand {op : BitVec 4} (h : 4 ≤ op.toNat ∧ op.toNat ≤ 10) (hxfer : op ≠ 4) :
    ∃ a, frameSub op = some a := by
  have every : ∀ op : BitVec 4, 4 ≤ op.toNat → op.toNat ≤ 10 → op ≠ 4 → (frameSub op).isSome = true := by decide
  exact Option.isSome_iff_exists.mp (every op h.1 h.2 hxfer)

theorem txByte_two_of_frameInv {s : State} (hinv : s.FrameInv) (hst : s.st ≠ .idle) {a : SubAddr}
    (ha : frameSub s.opr = some a) : s.txByte 2 = a.code := by
  obtain ⟨hlen, hframe⟩ := hinv hst a ha
  have hle : (s.payBytes s.paylen.toNat).length ≤ 22 := by
    rw [State.payBytes, Memory.length_readBytes]
    omega
  obtain ⟨-, -, hsub, -⟩ := holdsFrame_of_txFrame hle hframe
  exact hsub

/-- Settles O36: the edge hands the response to the waiting command, which takes it as XFER or fails to decode it. -/
theorem responseWithoutSyncIsJudged : Obligations.ResponseWithoutSyncIsJudged := by
  intro s hinv hquiet hlnk hsync hlen hst
  have hbad : s.rxByte 0 ≠ 0xAA := fun h => hsync (congrArg BitVec.toNat h)
  obtain ⟨mem, stray, idx, hstep, hlast, hbytes⟩ := step_of_no_sync hinv hquiet hlnk hbad hlen hst
  have hexch : s.exchanging := hst.symm.imp_left And.left
  have hbusy : s.st ≠ .idle := fun hidle => by simp [State.exchanging, hidle] at hexch
  by_cases hop : s.opr = 4
  · rw [exchangeOk_of_xfer (s := s.withResponse mem stray idx) hop] at hstep
    obtain ⟨-, herr⟩ := hinv.record.running hbusy
    exact ⟨_, hstep, rfl, rfl, rfl, hlast, hbytes, rfl, rfl, rfl, (if_pos hop).mpr ⟨herr, rfl, rfl⟩⟩
  · obtain ⟨a, ha⟩ := frameSub_of_linkCommand (hinv.engine.linkCommand hexch) hop
    have hsub := txByte_two_of_frameInv hinv.frame hbusy ha
    have hstill : (s.withResponse mem stray idx).rxByte 0 ≠ 0xAA :=
      fun h => hbad ((hbytes 0 (by decide)).symm.trans h)
    rw [exchangeOk_of_no_sync (s := s.withResponse mem stray idx) ha rfl hstill] at hstep
    refine ⟨_, hstep, rfl, rfl, rfl, hlast, hbytes, rfl, rfl, rfl, (if_neg hop).mpr ⟨?_, rfl, rfl, rfl, hsub.symm, rfl⟩⟩
    exact isVerdict_checkVerdict _ .rx

end Sys2Proof.Machine
end

section
/-! The invariant of the block: what makes an idle, an exchanging and a settling state meet it, and one lemma per operation that it
leads there (R21, R40, R43, R53, R115, R153 to R158, R172, R174, R211). -/

namespace Sys2Proof.Machine

/-! ### A command that has reported nothing yet -/

/-- No completion and no error is recorded since the acceptance (R53, R85), and the decode records agree with themselves. -/
structure Unreported (mem : Memory) (done : Bool) (err : ErrClass) (errInfo : ErrInfo) (dec : Decoded) (chk : CheckFlags) :
    Prop where
  memory : mem.wf = true
  done : done = false
  err : err = .ok
  errInfo : errInfo = { detail := .none, sub := 0, op := 0 }
  ack : dec.ackOk = ackVerdict dec.ack
  out : dec.outOn = outputOn dec.state
  check : chk.ok = true → chk.sum = chk.rcv

/-- The running command of a state has reported nothing. -/
def State.unreported (s : State) : Prop := Unreported s.mem s.status.done s.status.err s.errInfo s.dec s.chk

section
variable {s t : State}

theorem State.Inv.unreported (h : s.Inv) (hst : s.st ≠ .idle) : s.unreported := by
  obtain ⟨hdone, herr⟩ := h.record.running hst
  exact ⟨h.memory, hdone, herr, h.record.noError herr, h.record.ack, h.record.out, h.record.check⟩

theorem State.Inv.beginCommand (h : s.Inv) (op : BitVec 4) : (beginCommand op s).unreported :=
  ⟨h.memory, rfl, rfl, rfl, h.record.ack, h.record.out, h.record.check⟩

/-- The records of a command that has reported nothing, whatever its FSM state. -/
theorem State.unreported.recordInv (h : s.unreported) : s.RecordInv :=
  ⟨fun _ => ⟨h.done, h.err⟩, by rw [h.errInfo, h.err]; rfl, fun _ => h.errInfo, h.ack, h.out, h.check⟩

/-- Other bytes in the buffers. -/
theorem State.unreported.with_mem (h : s.unreported) {mem : Memory} (hmem : mem.wf = true) :
    State.unreported { s with mem := mem } :=
  { h with memory := hmem }

/-! ### Where a ramp stands (R170 to R172) -/

/-- A running ramp has latched its operands and recorded its position in RAMP_POS. -/
structure RampLatched (regs : HostRegs) (r : RampRegs) (rampPos : Word) : Prop where
  target : r.target = regs.rampTo
  step : r.step = regs.rampStep
  offset : r.offset = regs.rampOffset
  delay : r.delay = regs.settle
  up : r.up = decide (regs.rampFrom.toNat < regs.rampTo.toNat)
  distance : regs.rampFrom ≠ regs.rampTo
  stepSize : regs.rampStep ≠ 0
  recorded : rampPos = r.pos

/-- As many steps as RAMP_CNT says are done, and another one is due. -/
structure RampDue (regs : HostRegs) (r : RampRegs) (cnt : Word) : Prop where
  short : cnt.toNat * regs.rampStep.toNat < rampDistance regs
  pos : (r.pos.toNat : Int) = rampAt regs (cnt.toNat * regs.rampStep.toNat)

/-- The due step is under way. -/
structure RampInFlight (regs : HostRegs) (r : RampRegs) (cnt : Word) : Prop extends RampDue regs r cnt where
  cand : (r.cand.toNat : Int) = rampAt regs (min ((cnt.toNat + 1) * regs.rampStep.toNat) (rampDistance regs))
  final : r.final = decide (rampDistance regs ≤ (cnt.toNat + 1) * regs.rampStep.toNat)

/-- A step has just been acknowledged. -/
structure RampSettled (regs : HostRegs) (r : RampRegs) (cnt : Word) : Prop where
  counted : 1 ≤ cnt.toNat
  short : (cnt.toNat - 1) * regs.rampStep.toNat < rampDistance regs
  reached : r.cand = r.pos
  pos : (r.pos.toNat : Int) = rampAt regs (min (cnt.toNat * regs.rampStep.toNat) (rampDistance regs))
  final : r.final = decide (rampDistance regs ≤ cnt.toNat * regs.rampStep.toNat)

theorem State.Inv.rampLatched (h : s.Inv) (hramp : s.ramping) : RampLatched s.regs s.ramp s.rampPos := by
  obtain ⟨htarget, hstep, hoffset, hdelay, hup, hdistance, hsize⟩ := h.ramp.latched hramp
  exact ⟨htarget, hstep, hoffset, hdelay, hup, hdistance, hsize, h.ramp.recorded hramp⟩

theorem State.Inv.rampInFlight (h : s.Inv) (hramp : s.ramping) (hex : s.exchanging) :
    RampInFlight s.regs s.ramp s.rampCnt := by
  obtain ⟨hshort, hpos, hcand, hfinal⟩ := h.ramp.inFlight hramp hex
  exact ⟨⟨hshort, hpos⟩, hcand, hfinal⟩

theorem State.Inv.rampSettled (h : s.Inv) (hramp : s.ramping) (hst : s.st = .settle) :
    RampSettled s.regs s.ramp s.rampCnt := by
  obtain ⟨hcounted, hshort, hreached, hpos, hfinal⟩ := h.ramp.settled hramp hst
  exact ⟨hcounted, hshort, hreached, hpos, hfinal⟩

/-! ### The three kinds of states that meet the invariant -/

theorem State.Inv.of_idle (hst : s.st = .idle) (hmem : s.mem.wf = true) (hrxw : s.rxw = false) (hscnt : s.scnt = 0)
    (hrecord : s.RecordInv) : s.Inv := by
  have hno : ¬ s.exchanging := by simp [State.exchanging, hst]
  have hnoramp : ¬ s.ramping := fun h => h.1 hst
  refine ⟨hmem, ⟨by simp [hrxw, hno], ?_, ?_, ?_, fun h => absurd h hno, ?_, fun _ => hscnt⟩, hrecord,
    fun h => absurd hst h, ⟨fun h => absurd h hnoramp, fun h => absurd h hnoramp, fun h => absurd h hnoramp,
    fun h => absurd h hnoramp⟩⟩
  all_goals simp [hst]

/-- The frame that the running command has built stands in TXBUF (R80, R112). -/
def State.frameStands (s : State) : Prop :=
  ∀ a, frameSub s.opr = some a →
    s.paylen.toNat ≤ 4 ∧ s.txFrame = frameBytes s.regs.devAddr a.code (s.payBytes s.paylen.toNat)

/-- All that an exchange rests on but for its own counters. -/
structure State.ExchangeReady (s : State) : Prop where
  unreported : s.unreported
  settleCount : s.scnt = 0
  linkCommand : 4 ≤ s.opr.toNat ∧ s.opr.toNat ≤ 10
  frame : s.frameStands
  ramp : s.opr = 10 → RampLatched s.regs s.ramp s.rampPos ∧ RampInFlight s.regs s.ramp s.rampCnt

theorem State.Inv.exchangeReady (h : s.Inv) (hex : s.exchanging) : s.ExchangeReady := by
  have hbusy : s.st ≠ .idle := fun hst => by simp [State.exchanging, hst] at hex
  have hnot : s.st ≠ .settle := fun hst => by simp [State.exchanging, hst] at hex
  exact ⟨h.unreported hbusy, h.engine.settleCount hnot, h.engine.linkCommand hex, h.frame hbusy,
    fun hop => ⟨h.rampLatched ⟨hbusy, hop⟩, h.rampInFlight ⟨hbusy, hop⟩ hex⟩⟩

/-- The counters of an exchange in their bounds (R151 to R157). -/
def State.countsInBounds (s : State) : Prop :=
  (s.st = .tx ∧ s.txIdx.toNat < 26 ∧ s.rxlen.toNat ≤ 26) ∨
  (s.st = .rx ∧ s.txIdx.toNat = 26 ∧ s.rxlen.toNat < 26 ∧
    (s.regs.rxTimeout ≠ 0 → s.tmr.toNat < s.regs.rxTimeout.toNat))

theorem State.Inv.of_exchange (h : s.ExchangeReady) (hrxw : s.rxw = true) (hcounts : s.countsInBounds) : s.Inv := by
  have hex : s.exchanging := hcounts.imp And.left And.left
  have hsettle : s.st ≠ .settle := fun hst => by simp [State.exchanging, hst] at hex
  have hengine : s.EngineInv := by
    refine ⟨by simp [hrxw, hex], ?_, ?_, ?_, fun _ => h.linkCommand, fun hst => absurd hst hsettle,
      fun _ => h.settleCount⟩
    · obtain ⟨-, hbounds⟩ | ⟨hst, -⟩ := hcounts
      · exact fun _ => hbounds
      · simp [hst]
    · obtain ⟨hst, -⟩ | ⟨-, hidx, hlen, -⟩ := hcounts
      · simp [hst]
      · exact fun _ => ⟨hidx, hlen⟩
    · obtain ⟨hst, -⟩ | ⟨-, -, -, htmr⟩ := hcounts
      · simp [hst]
      · exact fun _ => htmr
  have hramp : s.RampInv := by
    refine ⟨fun hr => ?_, fun hr => ?_, fun hr _ => ?_, fun _ hst => absurd hst hsettle⟩
    all_goals obtain ⟨hlat, hfl⟩ := h.ramp hr.2
    · exact ⟨hlat.target, hlat.step, hlat.offset, hlat.delay, hlat.up, hlat.distance, hlat.stepSize⟩
    · exact hlat.recorded
    · exact ⟨hfl.short, hfl.pos, hfl.cand, hfl.final⟩
  exact ⟨h.unreported.memory, hengine, h.unreported.recordInv, fun _ => h.frame, hramp⟩

theorem State.Inv.of_settle (h : s.unreported) (hst : s.st = .settle) (hrxw : s.rxw = false) (hop : s.opr = 10)
    (hscnt : s.scnt ≠ 0 ∧ s.scnt.toNat ≤ s.ramp.delay.toNat) (hframe : s.frameStands)
    (hlat : RampLatched s.regs s.ramp s.rampPos) (hsettled : RampSettled s.regs s.ramp s.rampCnt) : s.Inv := by
  have hno : ¬ s.exchanging := by simp [State.exchanging, hst]
  refine ⟨h.memory, ⟨by simp [hrxw, hno], ?_, ?_, ?_, fun hex => absurd hex hno, fun _ => ⟨hop, hscnt⟩,
    fun hne => absurd hst hne⟩, h.recordInv, fun _ => hframe, ⟨fun _ => ?_, fun _ => hlat.recorded,
    fun _ hex => absurd hex hno, fun _ _ => ?_⟩⟩
  · simp [hst]
  · simp [hst]
  · simp [hst]
  · exact ⟨hlat.target, hlat.step, hlat.offset, hlat.delay, hlat.up, hlat.distance, hlat.stepSize⟩
  · exact ⟨hsettled.counted, hsettled.short, hsettled.reached, hsettled.pos, hsettled.final⟩

/-! ### Completions -/

theorem completeOk_inv (h : s.unreported) : (completeOk s).Inv := by
  refine .of_idle rfl h.memory rfl rfl ⟨fun hne => absurd rfl hne, ?_, fun _ => h.errInfo, h.ack, h.out, h.check⟩
  have hnone : s.errInfo.detail.belongsTo s.status.err = true := by rw [h.errInfo, h.err]; rfl
  exact hnone

theorem raiseError_inv (h : s.unreported) {c : ErrClass} {d : Detail} (hd : d.belongsTo c = true) (hc : c ≠ .ok)
    (sub : Byte) : (raiseError c d sub s).Inv :=
  .of_idle rfl h.memory rfl rfl ⟨fun hne => absurd rfl hne, hd, fun hok => absurd hok hc, h.ack, h.out, h.check⟩

/-! ### Frames built and exchanges started -/

theorem State.unreported.buildFrame (h : s.unreported) (dev sub : Byte) (pay : List Byte) :
    (buildFrame dev sub pay s).unreported := h.with_mem (Memory.wf_writeBytes _ _ _ h.memory)

theorem State.unreported.setPayload (h : s.unreported) (pay : List Byte) : (setPayload pay s).unreported :=
  h.with_mem (Memory.wf_writeBytes _ _ _ h.memory)

/-- A numeric frame is the frame of the payload it sets (R114). -/
theorem buildNumeric_eq (sub : Byte) (v : Word) (s : State) :
    buildNumeric sub v s = buildFromPayload sub (setPayload (numericPayload v) s) := by
  have hlen : (BitVec.ofNat 5 (numericPayload v).length).toNat = (numericPayload v).length := by
    have hle := length_numericPayload_le v
    rw [BitVec.toNat_ofNat]
    omega
  rw [buildFromPayload, setPayload_paylen, hlen, payBytes_setPayload _ _ (length_numericPayload_le v)]
  rfl

/-- A command that builds the frame of its own sub-address has it in TXBUF. -/
theorem frameStands_buildFromPayload {a : SubAddr} (ha : frameSub s.opr = some a) (hlen : s.paylen.toNat ≤ 4) :
    (buildFromPayload a.code s).frameStands := by
  intro b hb
  cases ha.symm.trans hb
  have hle : (s.payBytes s.paylen.toNat).length ≤ 22 := by
    rw [State.payBytes, Memory.length_readBytes]
    omega
  have hkept : (buildFromPayload a.code s).payBytes s.paylen.toNat = s.payBytes s.paylen.toNat :=
    Memory.readBytes_congr _ _ _ _ fun i _ =>
      read_buildFrame_outside _ _ _ _ hle _ (by unfold Config.payBase; omega)
  refine ⟨hlen, ?_⟩
  calc (buildFromPayload a.code s).txFrame
    _ = frameBytes s.regs.devAddr a.code (s.payBytes s.paylen.toNat) := txFrame_buildFrame _ _ _ _ hle
    _ = _ := by rw [← hkept]; rfl

theorem startExchange_inv (h : s.ExchangeReady) : (startExchange s).Inv := by
  have hmem : (startExchange s).mem.wf = true := by
    rw [startExchange_mem]
    exact Memory.wf_writeBytes _ _ _ h.unreported.memory
  have hframe : (startExchange s).frameStands := fun a ha => by
    rw [txFrame_startExchange, payBytes_startExchange]
    exact h.frame a ha
  exact .of_exchange ⟨{ h.unreported with memory := hmem }, h.settleCount, h.linkCommand, hframe, h.ramp⟩ rfl
    (.inl ⟨rfl, by simp, by simp⟩)

/-! ### Ramp steps (R171) -/

/-- A due step goes to the next multiple of the step size, or to the target if that would reach or pass it. -/
theorem RampDue.nextPosition {regs : HostRegs} {r : RampRegs} {cnt pos : Word} (h : RampDue regs r cnt)
    (hlat : RampLatched regs r pos) :
    ((nextPosition r).1.toNat : Int) =
        rampAt regs (min ((cnt.toNat + 1) * regs.rampStep.toNat) (rampDistance regs)) ∧
      (nextPosition r).2 = decide (rampDistance regs ≤ (cnt.toNat + 1) * regs.rampStep.toNat) := by
  obtain ⟨hshort, hpos⟩ := h
  have hup := hlat.up
  rw [Nat.succ_mul]
  generalize cnt.toNat * regs.rampStep.toNat = k at hshort hpos ⊢
  unfold Machine.nextPosition
  rw [hlat.target, hlat.step]
  unfold rampAt rampDistance at *
  by_cases hdir : regs.rampFrom.toNat < regs.rampTo.toNat
  · rw [if_pos hdir] at hpos
    rw [if_pos (by simpa [hdir] using hup), if_pos hdir]
    split
    · rw [Nat.min_eq_right (by omega)]
      exact ⟨by dsimp only; omega, (decide_eq_true (by omega)).symm⟩
    · have hsum : (r.pos + regs.rampStep).toNat = r.pos.toNat + regs.rampStep.toNat :=
        BitVec.toNat_add_of_lt (by omega)
      rw [Nat.min_eq_left (by omega)]
      exact ⟨by dsimp only; omega, (decide_eq_false (by omega)).symm⟩
  · rw [if_neg hdir] at hpos
    rw [if_neg (by simpa [hdir] using hup), if_neg hdir]
    split
    · rw [Nat.min_eq_right (by omega)]
      exact ⟨by dsimp only; omega, (decide_eq_true (by omega)).symm⟩
    · have hdiff : (r.pos - regs.rampStep).toNat = r.pos.toNat - regs.rampStep.toNat :=
        BitVec.toNat_sub_of_le (BitVec.le_def.mpr (by omega))
      rw [Nat.min_eq_left (by omega)]
      exact ⟨by dsimp only; omega, (decide_eq_false (by omega)).symm⟩

theorem RampDue.aimed (h : RampDue s.regs s.ramp s.rampCnt) (hlat : RampLatched s.regs s.ramp s.rampPos) :
    RampInFlight s.regs (aimed s).ramp s.rampCnt := by
  obtain ⟨hcand, hfinal⟩ := h.nextPosition hlat
  exact ⟨⟨h.short, h.pos⟩, hcand, hfinal⟩

/-- Setting a number's payload makes PAYLEN at most 4 (R111). -/
theorem paylen_setPayload_numericPayload (v : Word) (s : State) : (setPayload (numericPayload v) s).paylen.toNat ≤ 4 := by
  have hle := nbytes_le v
  rw [setPayload_paylen, length_numericPayload, BitVec.toNat_ofNat]
  omega

theorem linkCommand_of_frameSub {op : BitVec 4} {a : SubAddr} (h : frameSub op = some a) :
    4 ≤ op.toNat ∧ op.toNat ≤ 10 := by
  have every : ∀ op : BitVec 4, frameSub op ≠ none → 4 ≤ op.toNat ∧ op.toNat ≤ 10 := by decide
  exact every op (by simp [h])

/-- A command that builds its own frame of at most four payload bytes starts its exchange (R171, R190). -/
theorem singleShot_inv {a : SubAddr} (h : s.unreported) (hscnt : s.scnt = 0) (ha : frameSub s.opr = some a)
    (hlen : s.paylen.toNat ≤ 4)
    (hramp : s.opr = 10 → RampLatched s.regs s.ramp s.rampPos ∧ RampInFlight s.regs s.ramp s.rampCnt) :
    (singleShot a s).Inv :=
  startExchange_inv ⟨h.buildFrame _ _ _, hscnt, linkCommand_of_frameSub ha, frameStands_buildFromPayload ha hlen, hramp⟩

theorem rampStep_inv (h : s.unreported) (hscnt : s.scnt = 0) (hop : s.opr = 10)
    (hlat : RampLatched s.regs s.ramp s.rampPos) (hdue : RampDue s.regs s.ramp s.rampCnt) : (rampStep s).Inv := by
  obtain ⟨-, e⟩ | ⟨-, e⟩ := rampStep_cases s
  · rw [e, buildNumeric_eq]
    exact singleShot_inv (a := .voltageSetpoint) (s := setPayload _ (aimed s))
      (State.unreported.setPayload (s := aimed s) h _) hscnt (congrArg frameSub hop)
      (paylen_setPayload_numericPayload _ _) fun _ => ⟨{ hlat with }, hdue.aimed hlat⟩
  · rw [e]
    exact raiseError_inv (s := aimed s) h rfl (by decide) _

theorem rampContinue_inv (h : s.unreported) (hscnt : s.scnt = 0) (hop : s.opr = 10)
    (hlat : RampLatched s.regs s.ramp s.rampPos) (hsettled : RampSettled s.regs s.ramp s.rampCnt) :
    (rampContinue s).Inv := by
  unfold rampContinue
  split
  case isTrue => exact completeOk_inv h
  case isFalse hfinal =>
    have hshort : s.rampCnt.toNat * s.regs.rampStep.toNat < rampDistance s.regs := by
      simpa [hsettled.final] using hfinal
    have hpos := hsettled.pos
    rw [Nat.min_eq_left hshort.le] at hpos
    exact rampStep_inv h hscnt hop hlat ⟨hshort, hpos⟩

/-! ### Responses (R131, R158, R171, R190) -/

/-- A decode reports nothing and writes nothing but FV and the decode registers; what it may fail with belongs to the classes
its callers raise (R131, R211, 90_conflicts.md C4). -/
theorem unreported_of_decodeFrame {d : Option Detail} (h : s.unreported) (hdec : decodeFrame s = (t, d)) :
    t.unreported ∧ (∃ status chk dec, t = { s with status := status, chk := chk, dec := dec }) ∧
      ∀ e, d = some e → e.belongsTo .frameError = true ∧ (s.rxlen.toNat = 26 → e.belongsTo .communicationError = true) := by
  have hverdict : (checkVerdict s .rx).ok = true → (checkVerdict s .rx).sum = (checkVerdict s .rx).rcv := by
    simp [checkVerdict]
  obtain ⟨hmem, hdone, herr, hinfo, hack, hout, hchk⟩ := h
  obtain ⟨hshort, e⟩ | ⟨-, -, e⟩ | ⟨-, -, -, -, e⟩ | ⟨-, -, -, e⟩ := decodeFrame_cases s
  all_goals obtain ⟨rfl, rfl⟩ := Prod.mk.inj (e.symm.trans hdec)
  · refine ⟨⟨hmem, hdone, herr, hinfo, hack, hout, hchk⟩, ⟨_, _, _, rfl⟩, ?_⟩
    rintro _ ⟨⟩
    exact ⟨rfl, fun hfull => absurd hfull hshort⟩
  · refine ⟨⟨hmem, hdone, herr, hinfo, hack, hout, hverdict⟩, ⟨_, _, _, rfl⟩, ?_⟩
    rintro _ ⟨⟩
    exact ⟨rfl, fun _ => rfl⟩
  · refine ⟨⟨hmem, hdone, herr, hinfo, hack, hout, hverdict⟩, ⟨_, _, _, rfl⟩, ?_⟩
    rintro _ ⟨⟩
    exact ⟨rfl, fun _ => rfl⟩
  · exact ⟨⟨hmem, hdone, herr, hinfo, rfl, rfl, hverdict⟩, ⟨_, _, _, rfl⟩, fun _ hnone => nomatch hnone⟩

theorem singleShotAnswered_inv (a : SubAddr) (h : s.unreported) : (singleShotAnswered a s).Inv := by
  obtain ⟨t, d, hd, e⟩ | ⟨t, hd, -, -, e⟩ | ⟨t, hd, -, e⟩ := singleShotAnswered_cases a s
  all_goals
    obtain ⟨ht, -, hdetail⟩ := unreported_of_decodeFrame h hd
    rw [e]
  · exact raiseError_inv ht (hdetail d rfl).1 (by decide) _
  · exact raiseError_inv ht rfl (by decide) _
  · exact completeOk_inv ht

/-- An acknowledged step is one more, without overflow, and stands where it was sent. -/
theorem RampInFlight.recorded {regs : HostRegs} {r : RampRegs} {cnt pos : Word} (h : RampInFlight regs r cnt)
    (hlat : RampLatched regs r pos) : RampSettled regs { r with pos := r.cand } (cnt + 1) := by
  have hsize : 0 < regs.rampStep.toNat := by
    have hne := hlat.stepSize
    bv_omega
  have hcnt := Nat.le_mul_of_pos_right cnt.toNat hsize
  have hdistance : rampDistance regs < 2 ^ 32 := by
    unfold rampDistance
    omega
  have hshort := h.short
  have hnext : (cnt + 1).toNat = cnt.toNat + 1 := BitVec.toNat_add_of_lt (by simp; omega)
  exact ⟨by omega, by rwa [hnext, Nat.add_sub_cancel], rfl, by rw [hnext]; exact h.cand, by rw [hnext]; exact h.final⟩

theorem rampAnswered_inv (h : s.ExchangeReady) (hrxw : s.rxw = false) (hop : s.opr = 10) (hlen : s.rxlen.toNat = 26) :
    (rampAnswered s).Inv := by
  obtain ⟨hlat, hfl⟩ := h.ramp hop
  obtain ⟨t, d, hd, e⟩ | ⟨t, hd, -, e⟩ | ⟨t, hd, -, -, e⟩ | ⟨t, hd, -, hdelay, e⟩ := rampAnswered_cases s
  all_goals
    obtain ⟨ht, ⟨status, chk, dec, rfl⟩, hdetail⟩ := unreported_of_decodeFrame h.unreported hd
    rw [e]
  · exact raiseError_inv ht ((hdetail d rfl).2 hlen) (by decide) _
  · exact raiseError_inv ht rfl (by decide) _
  · exact rampContinue_inv (s := recordedStep { s with status := status, chk := chk, dec := dec }) ht h.settleCount hop
      { hlat with recorded := rfl } (hfl.recorded hlat)
  · exact .of_settle ht rfl hrxw hop ⟨hdelay, Nat.le_refl _⟩ h.frame { hlat with recorded := rfl } (hfl.recorded hlat)

/-- The edge at which the response is complete (R158). -/
theorem exchangeOk_inv (h : s.ExchangeReady) (hlen : s.rxlen.toNat = 26) : (exchangeOk s).Inv := by
  obtain ⟨a, -, e⟩ | ⟨-, hop, e⟩ | ⟨-, -, e⟩ := exchangeOk_cases s
  · exact e ▸ singleShotAnswered_inv a h.unreported
  · exact e ▸ rampAnswered_inv (s := { s with rxw := false }) { h with } rfl hop hlen
  · exact e ▸ completeOk_inv h.unreported

theorem exchangeFail_inv (h : s.unreported) {d : Detail} (hd : d.belongsTo .communicationError = true) :
    (exchangeFail d s).Inv := raiseError_inv h hd (by decide) _

end

end Sys2Proof.Machine
end

section
/-! The invariant of the block along a step: the received byte, the cycles of a busy block, the acceptance of a command and the host's
writes keep it (R53, R65, R85, R153 to R158, R170, R174, R240). -/

namespace Sys2Proof.Machine

section
variable {s t : State}

/-! ### Counters that do not wrap -/

/-- RXLEN and TXIDX count to 26 (R151, R154). -/
theorem toNat_count_succ {n : BitVec 5} (h : n.toNat < 26) : (n + 1).toNat = n.toNat + 1 :=
  BitVec.toNat_add_of_lt (by simp; omega)

/-- TMR counts below a timeout (R157). -/
theorem toNat_word_succ {n m : Word} (h : n.toNat < m.toNat) : (n + 1).toNat = n.toNat + 1 :=
  BitVec.toNat_add_of_lt (by simp; omega)

/-! ### What the invariant does not see -/

/-- Other STATUS bits, with the same ERR and no new DONE; another CMD word and other inputs. -/
theorem State.Inv.with_unseen (h : s.Inv) {status : StatusBits} (herr : status.err = s.status.err)
    (hdone : status.done = true → s.status.done = true) (cmd : Word) (script : List Pins) (cycle : Nat) :
    State.Inv { s with status := status, cmd := cmd, script := script, cycle := cycle } := by
  obtain ⟨hmem, ⟨hwin, hsend, hwait, htmr, hlink, hset, hcount⟩, ⟨hrun, hdet, hno, hack, hout, hchk⟩, hframe,
    ⟨hlat, hrec, hfl, hsettled⟩⟩ := h
  refine ⟨hmem, ⟨hwin, hsend, hwait, htmr, hlink, hset, hcount⟩, ⟨fun hst => ?_, ?_, ?_, hack, hout, hchk⟩, hframe,
    ⟨hlat, hrec, hfl, hsettled⟩⟩
  · obtain ⟨hlow, hok⟩ := hrun hst
    exact ⟨Bool.eq_false_iff.mpr fun hhigh => absurd (hdone hhigh) (by simp [hlow]), herr.trans hok⟩
  · exact herr ▸ hdet
  · exact fun hok => hno (herr ▸ hok)

theorem State.Inv.of_next {u : State} (h : (.next u : Host.Outcome State Fault Refusal) = .next t) (hu : u.Inv) : t.Inv :=
  Host.Outcome.next.inj h ▸ hu

theorem tick_inv (h : s.Inv) : s.tick.Inv := h.with_unseen (status := s.status) rfl id s.cmd _ _

theorem statusWrite_inv (h : s.Inv) (p : Pins) : (statusWrite p s).Inv := by
  unfold statusWrite
  split
  · refine h.with_unseen (status := (clearStatus p.busWdata s).status) rfl (fun hd => ?_) s.cmd s.script s.cycle
    simp_all
  · exact h

/-! ### The received byte (R153, R154) -/

/-- The received byte has just completed the response in RX (R155). -/
structure State.Completing (s : State) : Prop where
  st : s.st = .rx
  rxlen : s.rxlen.toNat = 26
  ready : s.ExchangeReady

/-- A byte written to RXBUF. -/
theorem State.ExchangeReady.with_rxByte (h : s.ExchangeReady) {i : Nat} (hi : i < 26) (v : Byte) (n : BitVec 5) :
    State.ExchangeReady { s with mem := s.mem.write (0xA0 + i) v, rxlen := n } := by
  refine ⟨h.unreported.with_mem (Memory.wf_write _ _ _ h.unreported.memory), h.settleCount, h.linkCommand,
    fun a ha => ?_, h.ramp⟩
  obtain ⟨hlen, hframe⟩ := h.frame a ha
  have htx : (s.mem.write (0xA0 + i) v).readBytes Config.txBase Config.frameLen = s.txFrame :=
    Memory.readBytes_write_disjoint _ _ _ _ _ (.inl (by unfold Config.txBase Config.frameLen; omega))
  have hpay : (s.mem.write (0xA0 + i) v).readBytes Config.payBase s.paylen.toNat = s.payBytes s.paylen.toNat :=
    Memory.readBytes_write_disjoint _ _ _ _ _ (.inr (by unfold Config.payBase; omega))
  refine ⟨hlen, htx.trans (hframe.trans ?_)⟩
  exact congrArg _ hpay.symm

/-- The received byte keeps the invariant, unless it completes the response in RX. -/
theorem receive_inv (h : s.Inv) : (receive s).Inv ∨ (receive s).Completing := by
  obtain ⟨-, e⟩ | ⟨-, hopen, hlt, e⟩ | ⟨-, -, e⟩ := receive_cases s
  · exact .inl (e.symm ▸ h)
  · have hex := h.engine.window.mp hopen
    have hready := (h.exchangeReady hex).with_rxByte hlt s.pins.rxData (s.rxlen + 1)
    have hlen := toNat_count_succ hlt
    rw [e]
    obtain htx | hrx := hex
    · obtain ⟨hidx, -⟩ := h.engine.sending htx
      exact .inl (.of_exchange hready hopen (.inl ⟨htx, hidx, by dsimp only; omega⟩))
    · obtain ⟨hidx, -⟩ := h.engine.waiting hrx
      by_cases hlast : s.rxlen.toNat = 25
      · exact .inr ⟨hrx, by dsimp only; omega, hready⟩
      · exact .inl (.of_exchange hready hopen (.inr ⟨hrx, hidx, by dsimp only; omega, h.engine.timer hrx⟩))
  · exact .inl (e ▸ h.with_unseen (status := { s.status with stray := true }) rfl id s.cmd s.script s.cycle)

theorem served_inv (h : s.Inv) : s.served.Inv ∨ s.served.Completing := receive_inv (statusWrite_inv h s.pins)

theorem busyWrite_inv (h : s.Inv ∨ s.Completing) (p : Pins) : (busyWrite p s).Inv ∨ (busyWrite p s).Completing := by
  obtain ⟨b, hb⟩ := busyWrite_frame p s
  rw [hb]
  refine h.imp (fun hinv => ?_) fun hc => ?_
  · exact hinv.with_unseen (status := { s.status with busyWr := b }) rfl id s.cmd s.script s.cycle
  · obtain ⟨hst, hlen, hready⟩ := hc
    exact ⟨hst, hlen, { hready with }⟩

/-! ### The cycles of a busy block (R155, R174) -/

theorem txCycle_inv (h : s.Inv) (hst : s.st = .tx) : (txCycle s).Inv := by
  have hready := h.exchangeReady (.inl hst)
  have hopen : s.rxw = true := h.engine.window.mpr (.inl hst)
  have htaken : (byteTaken s).ExchangeReady := { hready with }
  obtain ⟨hidx, hlen⟩ := h.engine.sending hst
  have hnext := toNat_count_succ hidx
  obtain ⟨-, e⟩ | ⟨-, -, e⟩ | ⟨-, -, hmore, e⟩ | ⟨-, -, hlast, hwait, e⟩ | ⟨-, -, -, hfull, e⟩ := txCycle_cases s
  all_goals rw [e]
  · split
    · exact exchangeFail_inv htaken.unreported rfl
    · exact exchangeFail_inv hready.unreported rfl
  · exact h
  · exact .of_exchange htaken hopen (.inl ⟨hst, by simp only [byteTaken]; omega, hlen⟩)
  · refine .of_exchange { htaken with } hopen (.inr ⟨rfl, hlast, ?_, fun hne => ?_⟩)
    · exact lt_of_le_of_ne hlen hwait
    · exact Nat.pos_of_ne_zero fun hzero => hne (BitVec.eq_of_toNat_eq hzero)
  · exact exchangeOk_inv htaken hfull

theorem waitCycle_inv (h : s.Inv) (hst : s.st = .rx) : (waitCycle s).Inv := by
  have hready := h.exchangeReady (.inr hst)
  have hopen : s.rxw = true := h.engine.window.mpr (.inr hst)
  obtain ⟨hidx, hlen⟩ := h.engine.waiting hst
  obtain ⟨-, -, e⟩ | ⟨hgoes, e⟩ := waitCycle_cases s
  · exact e ▸ exchangeFail_inv hready.unreported rfl
  · refine e ▸ .of_exchange { hready with } hopen (.inr ⟨hst, hidx, hlen, fun hne => ?_⟩)
    have hlt : s.tmr.toNat + 1 < s.regs.rxTimeout.toNat := Nat.lt_of_not_le fun hle => hgoes ⟨hne, hle⟩
    have hnext := toNat_word_succ (Nat.lt_of_succ_lt hlt)
    exact hnext ▸ hlt

theorem settleCycle_inv (h : s.Inv) (hst : s.st = .settle) : (settleCycle s).Inv := by
  have hbusy : s.st ≠ .idle := by simp [hst]
  obtain ⟨hop, hne, hle⟩ := h.engine.settling hst
  have hrep := h.unreported hbusy
  have hlat := h.rampLatched ⟨hbusy, hop⟩
  have hsettled := h.rampSettled ⟨hbusy, hop⟩ hst
  have hclosed : s.rxw = false := by
    have hno : ¬ s.exchanging := by simp [State.exchanging, hst]
    simpa using mt h.engine.window.mp hno
  unfold settleCycle
  split
  case isTrue hmore =>
    have hless : (s.scnt - 1).toNat = s.scnt.toNat - 1 := BitVec.toNat_sub_of_le (BitVec.le_def.mpr (by simp; omega))
    refine .of_settle hrep hst hclosed hop ⟨fun hzero => ?_, ?_⟩ (h.frame hbusy) hlat hsettled
    · have hnone : (s.scnt - 1).toNat = 0 := congrArg BitVec.toNat hzero
      omega
    · show (s.scnt - 1).toNat ≤ s.ramp.delay.toNat
      omega
  case isFalse => exact rampContinue_inv (s := { s with scnt := 0 }) hrep rfl hop hlat hsettled

/-- In a memory in canonical form the complete response is taken alike whether RXBUF holds a frame or not (R131, R159). -/
theorem answerCycle_of_wf (hst : s.st = .rx) (hwf : s.mem.wf = true) : answerCycle s = .next (exchangeOk s) := by
  unfold answerCycle
  split
  case h_1 i hi =>
    obtain ⟨hsync, rfl⟩ := header_of_decodeResponseFrame (b0 := s.mem.read Config.rxBase) hi
    rw [exec_frameResponse, takeResponse, if_pos hst, putHeader_eq_self hwf hsync rfl rfl]
  case h_2 => rfl

theorem receiveCycle_inv (hst : s.st = .rx) (h : s.Inv ∨ s.Completing) (ht : receiveCycle s = .next t) : t.Inv := by
  have hready : s.ExchangeReady := h.elim (fun hinv => hinv.exchangeReady (.inr hst)) State.Completing.ready
  unfold receiveCycle at ht
  split at ht
  · exact .of_next ht (exchangeFail_inv hready.unreported rfl)
  · split at ht
    case isTrue hfull =>
      rw [answerCycle_of_wf hst hready.unreported.memory] at ht
      exact .of_next ht (exchangeOk_inv hready hfull)
    case isFalse hpart =>
      have hinv : s.Inv := h.resolve_right fun hc => hpart hc.rxlen
      exact .of_next ht (waitCycle_inv hinv hst)

theorem engineCycle_inv (h : s.Inv ∨ s.Completing) (ht : engineCycle s = .next t) : t.Inv := by
  have hinv (hst : s.st ≠ .rx) : s.Inv := h.resolve_right fun hc => hst hc.st
  unfold engineCycle at ht
  split at ht
  case h_1 hst => exact .of_next ht (hinv (by simp [hst]))
  case h_2 hst =>
    have hs := hinv (by simp [hst])
    rw [sendCycle_of_wf hst hs.memory] at ht
    exact .of_next ht (txCycle_inv hs hst)
  case h_3 hst => exact receiveCycle_inv hst h ht
  case h_4 hst => exact .of_next ht (settleCycle_inv (hinv (by simp [hst])) hst)

/-! ### The commands at acceptance (R85, R113 to R116, R132, R134, R159, R170, R190 to R195) -/

theorem frameSub_of_singleShotSub {op : BitVec 4} {a : SubAddr} (h : singleShotSub op = some a) :
    frameSub op = some a ∧ op ≠ 10 := by
  refine ⟨by rw [frameSub, h], ?_⟩
  rintro rfl
  cases h

/-- A command with a payload of at most four bytes sends its frame (R190 to R195). -/
theorem singleShot_setPayload_inv {a : SubAddr} (h : s.unreported) (hscnt : s.scnt = 0) (ha : singleShotSub s.opr = some a)
    {pay : List Byte} (hlen : pay.length ≤ 4) : (singleShot a (setPayload pay s)).Inv := by
  obtain ⟨hsub, hnot⟩ := frameSub_of_singleShotSub ha
  refine singleShot_inv (h.setPayload pay) hscnt hsub ?_ fun hop => absurd hop hnot
  rw [setPayload_paylen, BitVec.toNat_ofNat]
  exact (Nat.mod_le _ _).trans hlen

theorem flagCommand_inv {a : SubAddr} (h : s.unreported) (hscnt : s.scnt = 0) (ha : singleShotSub s.opr = some a) :
    (flagCommand a s).Inv := by
  unfold flagCommand
  split
  case h_1 pay hpay =>
    obtain ⟨-, rfl⟩ := (flagPayload_eq_some _ _).mp hpay
    exact singleShot_setPayload_inv h hscnt ha (by simp)
  case h_2 => exact raiseError_inv h rfl (by decide) _

theorem numericCommand_inv {a : SubAddr} (h : s.unreported) (hscnt : s.scnt = 0) (ha : singleShotSub s.opr = some a) :
    (numericCommand a s).Inv :=
  singleShot_setPayload_inv h hscnt ha ((length_numericPayload _).le.trans (nbytes_le _))

/-- RAMP latches its operands, and its first step is due where it has a distance and a step (R170). -/
theorem execRamp_inv (h : s.Inv) (hst : s.st = .idle) (ht : execRamp s = .next t) : t.Inv := by
  have hscnt : s.scnt = 0 := h.engine.settleCount (by simp [hst])
  have hlatched : (rampLatch (beginCommand 10 s)).unreported := h.beginCommand 10
  simp only [execRamp] at ht
  split at ht
  · exact .of_next ht (completeOk_inv hlatched)
  case isFalse hne =>
    split at ht
    · exact .of_next ht (raiseError_inv hlatched rfl (by decide) _)
    case isFalse hstep =>
      have hdistance : s.regs.rampFrom.toNat ≠ s.regs.rampTo.toNat := fun heq => hne (BitVec.eq_of_toNat_eq heq)
      have hshort : (0 : Word).toNat * s.regs.rampStep.toNat < rampDistance s.regs := by
        unfold rampDistance
        simp
        omega
      have hpos : (s.regs.rampFrom.toNat : Int) = rampAt s.regs ((0 : Word).toNat * s.regs.rampStep.toNat) := by
        simp [rampAt]
      exact .of_next ht
        (rampStep_inv hlatched hscnt rfl ⟨rfl, rfl, rfl, rfl, rfl, hne, hstep, rfl⟩ ⟨hshort, hpos⟩)

theorem exec_inv {i : Instr} (hi : i.place = .command) (h : s.Inv) (hst : s.st = .idle) (ht : exec i s = .next t) :
    t.Inv := by
  have hscnt : s.scnt = 0 := h.engine.settleCount (by simp [hst])
  cases i with
  | encRaw sub =>
    simp only [exec, execEncRaw] at ht
    split at ht
    · exact .of_next ht (raiseError_inv (h.beginCommand 1) rfl (by decide) _)
    · split at ht
      · exact .of_next ht (raiseError_inv (h.beginCommand 1) rfl (by decide) _)
      · exact .of_next ht (completeOk_inv ((h.beginCommand 1).buildFrame _ _ _))
  | encNum sub =>
    simp only [exec, execEncNum] at ht
    split at ht
    · exact .of_next ht (raiseError_inv (h.beginCommand 2) rfl (by decide) _)
    · exact .of_next ht (completeOk_inv (((h.beginCommand 2).setPayload _).buildFrame _ _ _))
  | decode =>
    simp only [exec, execDecode] at ht
    split at ht
    case h_1 hd =>
      obtain ⟨hu, -, hdetail⟩ := unreported_of_decodeFrame (h.beginCommand 3) hd
      exact .of_next ht (raiseError_inv hu (hdetail _ rfl).1 (by decide) _)
    case h_2 hd =>
      obtain ⟨hu, -, -⟩ := unreported_of_decodeFrame (h.beginCommand 3) hd
      exact .of_next ht (completeOk_inv hu)
  | xfer =>
    exact .of_next ht (startExchange_inv
      ⟨h.beginCommand 4, hscnt, ⟨Nat.le_refl 4, by simp⟩, (fun _ hnone => nomatch hnone), (fun hop => nomatch hop)⟩)
  | remote => exact .of_next ht (flagCommand_inv (h.beginCommand 5) hscnt rfl)
  | output => exact .of_next ht (flagCommand_inv (h.beginCommand 6) hscnt rfl)
  | setMaxv => exact .of_next ht (numericCommand_inv (h.beginCommand 7) hscnt rfl)
  | setImax => exact .of_next ht (numericCommand_inv (h.beginCommand 8) hscnt rfl)
  | status => exact .of_next ht (singleShot_setPayload_inv (h.beginCommand 9) hscnt rfl (by simp))
  | ramp => exact execRamp_inv h hst ht
  | validate buf =>
    obtain ⟨hmem, hdone, herr, hinfo, hack, hout, -⟩ := h.beginCommand 11
    exact .of_next ht (completeOk_inv ⟨hmem, hdone, herr, hinfo, hack, hout, by simp [checkVerdict]⟩)
  | unpack buf off wid =>
    simp only [exec, execUnpack] at ht
    split at ht
    · exact .of_next ht (completeOk_inv (h.beginCommand 12))
    · exact .of_next ht (raiseError_inv (h.beginCommand 12) rfl (by decide) _)
  | frameRemoteControl | frameOutputEnable | frameMaxVoltage | frameVoltageSetpoint | frameCurrentLimit | frameStatusQuery
  | frameResponse => cases hi

theorem acceptCommand_inv {w : Word} (h : s.Inv) (hst : s.st = .idle) (ht : acceptCommand w s = .next t) : t.Inv := by
  have hkept : State.Inv { s with cmd := w } := h.with_unseen (status := s.status) rfl id w s.script s.cycle
  unfold acceptCommand at ht
  split at ht
  case h_1 i hi => exact exec_inv (place_of_decode_command hi) hkept hst ht
  case h_2 e _ =>
    have hdetail : (illegalDetail e).belongsTo .illegalCommand = true := by cases e <;> rfl
    exact .of_next ht (raiseError_inv (hkept.beginCommand (cmdOp w)) hdetail (by decide) _)

/-! ### A whole step -/

theorem writeReg_wf (r : Reg) (v : Word) (h : s.mem.wf = true) : (writeReg r v s).mem.wf = true := by
  cases r with
  | txbuf k | rxbuf k | paybuf k => exact Memory.wf_writeBytes _ _ _ h
  | _ => exact h

/-- A register write to an idle block reaches operands and buffers, which the invariant of an idle block leaves free. -/
theorem idleWrite_inv (h : s.Inv) (hst : s.st = .idle) (p : Pins) : (idleWrite p s).Inv := by
  unfold idleWrite
  split
  · exact h
  case h_2 r _ =>
    have hwf := writeReg_wf r p.busWdata h.memory
    rw [writeReg_frame]
    exact .of_idle hst hwf (h.engine.rxw_eq_false hst) (h.engine.settleCount (by simp [hst])) { h.record with }

/-- A reset edge leaves an idle block with all records 0 (R240). -/
theorem resetEdge_inv (s : State) : (resetEdge s).Inv :=
  .of_idle rfl Memory.wf_reset rfl rfl
    ⟨fun hne => absurd rfl hne, rfl, fun _ => rfl, rfl, rfl, fun hok => nomatch hok⟩

theorem step_inv (h : s.Inv) (ht : step s = .next t) : t.Inv := by
  cases hrst : s.pins.rst with
  | true =>
    rw [step_of_rst hrst] at ht
    exact .of_next ht (tick_inv (resetEdge_inv s))
  | false =>
    rw [step_of_not_rst hrst] at ht
    obtain ⟨v, hv, rfl⟩ := thenTick_eq_next ht
    refine tick_inv ?_
    have hserved := served_inv h
    by_cases hst : s.served.st = .idle
    · have hinv : s.served.Inv := hserved.resolve_right fun hc => by simp [hc.st] at hst
      rw [blockCycle_of_idle _ hst] at hv
      unfold idleCycle at hv
      split at hv
      · exact acceptCommand_inv hinv hst hv
      · exact .of_next hv (idleWrite_inv hinv hst _)
    · rw [blockCycle_of_busy _ hst] at hv
      exact engineCycle_inv (busyWrite_inv hserved _) hv

/-- Settles O58: each kind of cycle, and each command's acceptance, leads to an idle, an exchanging or a settling state of the
invariant. -/
theorem everyStepKeepsTheInvariant : Obligations.EveryStepKeepsTheInvariant :=
  fun _ _ => step_inv

end

end Sys2Proof.Machine
end

section
/-! The exchange, operation by operation (R151 to R159): the received byte, the start by XFER, a cycle of a command frame's
transmission, and the response to XFER. -/

namespace Sys2Proof.Machine

section
variable {s t : State}

/-! ### The start of an exchange and the received byte (R153, R154, R158) -/

theorem responseCleared_startExchange (s : State) : (startExchange s).responseCleared := by
  intro i hi
  have hbyte := Memory.getD_readBytes (startExchange s).mem Config.rxBase 26 i hi
  have hclear : (startExchange s).mem.readBytes Config.rxBase 26 = List.replicate 26 0 := rxFrame_startExchange s
  rw [State.rxByte, ← hbyte, hclear, List.getD_eq_getElem _ _ (by simpa using hi), List.getElem_replicate]

/-- Settles O24: XFER's acceptance is the shared start of an exchange. -/
theorem xferStartsTheExchange : Obligations.XferStartsTheExchange := by
  intro s
  refine ⟨startExchange (beginCommand 4 s), rfl, responseCleared_startExchange _, ?_, ?_⟩
  · exact read_startExchange_outside (beginCommand 4 s)
  · dsimp only [startExchange, beginCommand]

/-- A byte that is stored (R154). -/
theorem receive_of_stored (hvalid : s.pins.rxValid = true) (hopen : s.rxw = true) (hlt : s.rxlen.toNat < 26) :
    receive s = { s with mem := s.mem.write (0xA0 + s.rxlen.toNat) s.pins.rxData, rxlen := s.rxlen + 1 } := by
  obtain ⟨hno, -⟩ | ⟨-, -, -, e⟩ | ⟨-, hfull, -⟩ := receive_cases s
  · exact absurd hvalid (by simp [hno])
  · exact e
  · exact absurd ⟨hopen, hlt⟩ hfull

theorem receive_of_none (hvalid : s.pins.rxValid = false) : receive s = s := by
  rw [receive, if_neg (by simp [hvalid])]

/-- Settles O25: the three cases of a received byte. -/
theorem receiveStoresOrMarksStray : Obligations.ReceiveStoresOrMarksStray := by
  intro s
  refine ⟨receive_of_none, fun hvalid hopen hlt => ?_, fun hvalid hfull => ?_⟩
  · rw [receive_of_stored hvalid hopen hlt]
    refine ⟨?_, toNat_count_succ hlt, fun a ha => ?_, rfl⟩
    · exact (Memory.read_write ..).trans (if_pos ⟨rfl, isBufferByte_rx hlt⟩)
    · exact (Memory.read_write ..).trans (if_neg fun h => ha h.1)
  · obtain ⟨hno, -⟩ | ⟨-, hopen, hlt, -⟩ | ⟨-, -, e⟩ := receive_cases s
    · exact absurd hvalid (by simp [hno])
    · exact absurd hfull (by simp [hopen]; omega)
    · exact e

/-! ### A cycle of transmission (R151, R155) -/

theorem txCycle_of_not_ready (hlnk : s.pins.lnkErr = false) (hready : s.pins.txReady = false) : txCycle s = s := by
  simp [txCycle, hlnk, hready]

/-- A fault wins over every other event of the cycle (R155, R156). -/
theorem txCycle_of_fault (hlnk : s.pins.lnkErr = true) :
    txCycle s = exchangeFail .link (if s.pins.txReady then byteTaken s else s) := by
  obtain ⟨-, e⟩ | ⟨hno, -⟩ | ⟨hno, -⟩ | ⟨hno, -⟩ | ⟨hno, -⟩ := txCycle_cases s
  · exact e
  all_goals exact absurd hlnk (by simp [hno])

section
variable (hlnk : s.pins.lnkErr = false) (hready : s.pins.txReady = true)

include hlnk hready

/-- A byte before the last one is taken. -/
theorem txCycle_of_byte (hidx : (s.txIdx + 1).toNat ≠ 26) : txCycle s = byteTaken s := by
  obtain ⟨hfault, -⟩ | ⟨-, hno, -⟩ | ⟨-, -, -, e⟩ | ⟨-, -, hlast, -⟩ | ⟨-, -, hlast, -⟩ := txCycle_cases s
  · exact absurd hfault (by simp [hlnk])
  · exact absurd hready (by simp [hno])
  · exact e
  · exact absurd hlast hidx
  · exact absurd hlast hidx

/-- The last byte is taken, and the response is not complete: the wait starts. -/
theorem txCycle_of_last_byte (hidx : s.txIdx = 25) (hlen : s.rxlen.toNat ≠ 26) :
    txCycle s = { s with txIdx := 26, st := .rx, tmr := 0 } := by
  obtain ⟨hfault, -⟩ | ⟨-, hno, -⟩ | ⟨-, -, hmore, -⟩ | ⟨-, -, -, -, e⟩ | ⟨-, -, -, hfull, -⟩ := txCycle_cases s
  · exact absurd hfault (by simp [hlnk])
  · exact absurd hready (by simp [hno])
  · exact absurd (by simp [hidx]) hmore
  · rw [e, byteTaken, hidx]
    rfl
  · exact absurd hfull hlen

/-- The last byte is taken, and the response is complete: the exchange ends at this edge. -/
theorem txCycle_of_early_response (hidx : s.txIdx = 25) (hlen : s.rxlen.toNat = 26) :
    txCycle s = exchangeOk (byteTaken s) := by
  obtain ⟨hfault, -⟩ | ⟨-, hno, -⟩ | ⟨-, -, hmore, -⟩ | ⟨-, -, -, hwait, -⟩ | ⟨-, -, -, -, e⟩ := txCycle_cases s
  · exact absurd hfault (by simp [hlnk])
  · exact absurd hready (by simp [hno])
  · exact absurd (by simp [hidx]) hmore
  · exact absurd hlen hwait
  · exact e

end

theorem exec_ofFrame_of_tx (a : SubAddr) (dev : Byte) (hst : s.st = .tx) :
    exec (Instr.ofFrame a dev) s = .next (txCycle (putHeader Config.txBase Config.sync dev a.code s)) := by
  rw [exec_ofFrame, transmitFrame, if_pos hst]

/-- Settles O26: the frame's header is written back where it stands, then the cycle takes no byte, a byte, or the last one. -/
theorem frameIsSentByteByByte : Obligations.FrameIsSentByteByByte := by
  intro a dev s hsync hdev hcode
  have hsame : sameMemory s (putHeader Config.txBase Config.sync dev a.code s) :=
    (putHeader_standing hsync hdev hcode).memory
  refine ⟨_, exec_ofFrame a dev s, fun hst => ?_, fun hst hlnk hready => ?_, fun hst hlnk hready hidx => ?_,
    fun hst hlnk hready hidx hlen => ?_⟩
  · rw [transmitFrame, if_neg hst]
  all_goals rw [transmitFrame, if_pos hst]
  · rw [txCycle_of_not_ready (by exact hlnk) (by exact hready)]
    exact ⟨hsame, rfl⟩
  · have hnext : (s.txIdx + 1).toNat = s.txIdx.toNat + 1 := toNat_count_succ (by omega)
    rw [txCycle_of_byte (by exact hlnk) (by exact hready) (by rw [putHeader_txIdx]; omega)]
    exact ⟨hnext, hsame, rfl⟩
  · rw [txCycle_of_last_byte (by exact hlnk) (by exact hready) (by exact hidx) (by exact hlen)]
    exact ⟨hsame, rfl⟩

/-! ### The response to XFER (R159) -/

/-- Settles O33: the response's header is written back where it stands, and XFER completes. -/
theorem responseCompletesXfer : Obligations.ResponseCompletesXfer := by
  rintro dev sub s ⟨hst, -, hsync, hdev, hsub⟩ hop
  refine ⟨_, exec_frameResponse dev sub s, ?_⟩
  rw [takeResponse, if_pos hst, exchangeOk_of_xfer (by exact hop)]
  exact ⟨(putHeader_standing hsync hdev hsub).memory, rfl⟩

/-! ### A step runs the frame (R151, R155) -/

/-- This cycle's STATUS write and received byte leave every byte outside RXBUF. -/
theorem sameOutsideRx_served (s : State) : sameOutsideRx s s.served := by
  have hreceive : ∀ t : State, sameOutsideRx t (receive t) := fun t a ha => by
    obtain ⟨-, e⟩ | ⟨-, -, hlt, e⟩ | ⟨-, -, e⟩ := receive_cases t
    · rw [e]
    · rw [e]
      exact (Memory.read_write ..).trans (if_neg (by omega))
    · rw [e]
  intro a ha
  rw [State.served, hreceive _ a ha]
  unfold statusWrite
  split
  · rfl
  · rfl

theorem txFrame_of_sameOutsideRx (h : sameOutsideRx s t) : t.txFrame = s.txFrame :=
  Memory.readBytes_congr _ _ _ _ fun i hi => h _ (by
    have hlt : i < 26 := hi
    unfold Config.txBase
    omega)

/-- The state in which the running command's cycle runs: this cycle's STATUS write, received byte and ignored host write are
handled (log 10). -/
def State.met (s : State) : State := busyWrite s.pins s.served

theorem step_of_busy (hrst : s.pins.rst = false) (hst : s.st ≠ .idle) : step s = thenTick (engineCycle s.met) := by
  obtain ⟨_, _, _, e, -⟩ := served_frame s
  rw [step_of_not_rst hrst, blockCycle_of_busy _ (by rwa [e]), State.met]

/-- Handling this cycle's inputs reaches nothing but the STATUS bits, RXBUF and RXLEN. -/
theorem met_frame (s : State) :
    ∃ status mem rxlen, s.met = { s with status := status, mem := mem, rxlen := rxlen } := by
  obtain ⟨status, mem, rxlen, e, -⟩ := served_frame s
  obtain ⟨b, hb⟩ := busyWrite_frame s.pins s.served
  exact ⟨_, mem, rxlen, by rw [State.met, hb, e]⟩

@[simp] theorem met_st (s : State) : s.met.st = s.st := by
  obtain ⟨_, _, _, e⟩ := met_frame s
  exact e ▸ rfl

@[simp] theorem met_opr (s : State) : s.met.opr = s.opr := by
  obtain ⟨_, _, _, e⟩ := met_frame s
  exact e ▸ rfl

@[simp] theorem met_regs (s : State) : s.met.regs = s.regs := by
  obtain ⟨_, _, _, e⟩ := met_frame s
  exact e ▸ rfl

@[simp] theorem met_txIdx (s : State) : s.met.txIdx = s.txIdx := by
  obtain ⟨_, _, _, e⟩ := met_frame s
  exact e ▸ rfl

@[simp] theorem met_pins (s : State) : s.met.pins = s.pins := by
  obtain ⟨_, _, _, e⟩ := met_frame s
  exact e ▸ rfl

theorem txFrame_met (s : State) : s.met.txFrame = s.txFrame := by
  obtain ⟨b, hb⟩ := busyWrite_frame s.pins s.served
  rw [State.met, hb]
  exact txFrame_of_sameOutsideRx (sameOutsideRx_served s)

/-- Settles O7: TXBUF is fetched as it stands before the edge, which this cycle's inputs do not change. -/
theorem stepRunsTheCommandFrame : Obligations.StepRunsTheCommandFrame := by
  intro s hrst hst
  have hstep : step s = thenTick (sendCycle s.met) := by
    rw [step_of_busy hrst (by simp [hst]), engineCycle, met_st, hst]
  refine ⟨fun i hi => ?_, fun e he => ?_⟩
  · rw [hstep, sendCycle, txFrame_met, hi]
    rfl
  · rw [hstep, sendCycle, txFrame_met, he]
    rfl

/-- Settles O8: RXBUF is fetched as this cycle's byte has completed it. -/
theorem stepRunsTheResponse : Obligations.StepRunsTheResponse := by
  intro s u i hrst hst hlnk hu hlen hi
  obtain rfl : u = s.met := hu
  have hfull : s.met.rxlen.toNat = Config.frameLen := congrArg BitVec.toNat hlen
  have hstep : step s = thenTick (receiveCycle s.met) := by
    rw [step_of_busy hrst (by simp [hst]), engineCycle, met_st, hst]
  rw [hstep, receiveCycle, if_neg (by simp [hlnk]), if_pos hfull, answerCycle, hi]

end

end Sys2Proof.Machine
end

section
/-! A response that is complete before the last byte is taken (R155): the end of an exchange is the same in TX as in RX. -/

namespace Sys2Proof.Machine

section
variable {s t : State}

/-! ### An early response (R155)

The end of an exchange does not look at the FSM state, which it overwrites. -/

/-- The state with another FSM state. -/
def State.inState (st : Fsm) (s : State) : State := { s with st := st }

variable {st : Fsm}

theorem decodeFrame_inState : decodeFrame (s.inState st) = Prod.map (State.inState st) id (decodeFrame s) := by
  rw [decodeFrame_eq, decodeFrame_eq, apply_ite (Prod.map _ id), apply_ite (Prod.map _ id), apply_ite (Prod.map _ id)]
  rfl

theorem singleShotAnswered_inState (a : SubAddr) : singleShotAnswered a (s.inState st) = singleShotAnswered a s := by
  simp only [singleShotAnswered, decodeFrame_inState]
  rcases decodeFrame s with ⟨t, _ | d⟩
  · rfl
  · rfl

theorem rampStep_inState : rampStep (s.inState st) = rampStep s := by
  dsimp only [rampStep, startExchange, State.inState]
  rfl

theorem rampContinue_inState : rampContinue (s.inState st) = rampContinue s := by
  rw [rampContinue, rampContinue, rampStep_inState]
  rfl

theorem rampAnswered_inState : rampAnswered (s.inState st) = rampAnswered s := by
  simp only [rampAnswered, decodeFrame_inState]
  rcases decodeFrame s with ⟨t, _ | d⟩
  · dsimp only
    rw [← rampContinue_inState (st := st)]
    rfl
  · rfl

theorem exchangeOk_inState : exchangeOk (s.inState st) = exchangeOk s := by
  have hopr : (s.inState st).opr = s.opr := rfl
  simp only [exchangeOk, hopr]
  rcases singleShotSub s.opr with _ | a
  · dsimp only
    by_cases hop : s.opr = 10
    · rw [if_pos hop, if_pos hop]
      exact rampAnswered_inState (s := { s with rxw := false })
    · rw [if_neg hop, if_neg hop]
      rfl
  · exact singleShotAnswered_inState (s := { s with rxw := false }) a

/-- The block that already waits in RX with its frame sent. -/
def State.waiting (s : State) : State := { s with st := .rx, txIdx := 26 }

/-- A response complete with the last byte to come is taken with that byte as it would be in RX. -/
theorem exchangeOk_byteTaken (hidx : s.txIdx = 25) : exchangeOk (byteTaken s) = exchangeOk s.waiting := by
  have hwaiting : s.waiting = (byteTaken s).inState .rx := by
    rw [byteTaken, hidx]
    rfl
  rw [hwaiting, exchangeOk_inState]

theorem met_waiting (s : State) : s.waiting.met = s.met.waiting := by
  have hstatus : ∀ p, ∀ t : State, statusWrite p t.waiting = (statusWrite p t).waiting := fun p t => by
    rw [statusWrite, statusWrite, apply_ite State.waiting]
    rfl
  have hreceive : ∀ t : State, receive t.waiting = (receive t).waiting := fun t => by
    rw [receive, receive, apply_ite State.waiting, apply_ite State.waiting]
    rfl
  have hbusy : ∀ p, ∀ t : State, busyWrite p t.waiting = (busyWrite p t).waiting := fun p t => by
    unfold busyWrite
    split <;> rfl
  rw [State.met, State.served, hstatus, hreceive, hbusy]
  rfl

theorem statusWrite_frame (p : Pins) (s : State) : ∃ status, statusWrite p s = { s with status := status } := by
  unfold statusWrite
  split <;> exact ⟨_, rfl⟩

/-- The response is complete when the running command's cycle begins: it was, or this cycle's byte completes it. -/
theorem met_of_completing (hinv : s.Inv) (hex : s.exchanging)
    (h : s.rxlen = 26 ∨ (s.rxlen = 25 ∧ s.pins.rxValid = true)) : s.met.rxlen = 26 ∧ s.met.mem.wf = true := by
  have hopen := hinv.engine.window.mpr hex
  obtain ⟨status, hw⟩ := statusWrite_frame s.pins s
  obtain ⟨mem, stray, hrecv, hwf, -⟩ :=
    receive_of_completing (s := { s with status := status }) hinv.memory hopen h.symm
  obtain ⟨b, hb⟩ := busyWrite_frame s.pins s.served
  rw [State.met, hb, State.served, hw, hrecv]
  exact ⟨rfl, hwf⟩

/-- The edge at which RX finds the response complete. -/
theorem engineCycle_of_complete (hst : s.st = .rx) (hwf : s.mem.wf = true) (hlnk : s.pins.lnkErr = false)
    (hlen : s.rxlen.toNat = 26) : engineCycle s = .next (exchangeOk s) := by
  have hfull : s.rxlen.toNat = Config.frameLen := hlen
  rw [engineCycle, hst]
  dsimp only
  rw [receiveCycle, if_neg (by simp [hlnk]), if_pos hfull, answerCycle_of_wf hst hwf]

/-- Settles O27: the cycle that takes the last byte ends the exchange, which does not see that it was in TX. -/
theorem earlyResponseEndsWithTheLastByte : Obligations.EarlyResponseEndsWithTheLastByte := by
  constructor
  · intro a dev d sub s hwf hst hlnk hready hidx hsync hdev hcode hlen hrsync hrdev hrsub
    have htx : putHeader Config.txBase Config.sync dev a.code s = s := putHeader_eq_self hwf hsync hdev hcode
    have hrx : putHeader Config.rxBase Config.sync d sub s.waiting = s.waiting :=
      putHeader_eq_self (s := s.waiting) hwf hrsync hrdev hrsub
    have hst' : s.waiting.st = .rx := rfl
    have hresponse : exec (.frameResponse d sub) s.waiting = .next (exchangeOk s.waiting) := by
      rw [exec_frameResponse, takeResponse, if_pos hst', hrx]
    rw [exec_ofFrame_of_tx a dev hst, htx, txCycle_of_early_response hlnk hready hidx (congrArg BitVec.toNat hlen),
      exchangeOk_byteTaken hidx]
    exact hresponse.symm
  · intro s hinv hrst hst hlnk hready hidx hlen
    have hbusy : s.st ≠ .idle := by simp [hst]
    obtain ⟨hfull, hwf⟩ := met_of_completing hinv (.inl hst) hlen
    have hlen' : s.met.rxlen.toNat = 26 := congrArg BitVec.toNat hfull
    rw [← met_pins] at hlnk hready
    rw [← met_txIdx] at hidx
    have htx : engineCycle s.met = .next (exchangeOk s.met.waiting) := by
      rw [engineCycle_of_last_byte ((met_st s).trans hst) hwf hlnk hready hidx hlen', exchangeOk_byteTaken hidx]
    have hrx : engineCycle s.met.waiting = .next (exchangeOk s.met.waiting) :=
      engineCycle_of_complete (s := s.met.waiting) rfl hwf hlnk hlen'
    show step s = step s.waiting
    rw [step_of_busy hrst hbusy, step_of_busy (s := s.waiting) hrst (by simp [State.waiting]), met_waiting, htx, hrx]

end

end Sys2Proof.Machine
end

section
/-! The link's fault (R156) and the cycles in RX that wait or time out (R154, R155, R157). -/

namespace Sys2Proof.Machine

section
variable {s t : State}

/-! ### The fault in an exchange (R156) -/

theorem met_exchangeReady (hinv : s.Inv) (hex : s.exchanging) : s.met.ExchangeReady := by
  have hmet : s.met.exchanging := by simpa [State.exchanging] using hex
  exact (busyWrite_inv (served_inv hinv) s.pins).elim (·.exchangeReady hmet) State.Completing.ready

theorem met_keeps_operands (hinv : s.Inv) (hst : s.st ≠ .idle) : keptButForAByte s s.met := by
  obtain ⟨b, hb⟩ := busyWrite_frame s.pins s.served
  have hsame : SameOperands s.served s.met := by
    rw [State.met, hb]
    exact .of_eq rfl
  exact hsame.keptButForAByte (served_keeps_operands hinv.engine hst)

theorem txByte_of_txFrame (h : t.txFrame = s.txFrame) {i : Nat} (hi : i < 26) : t.txByte i = s.txByte i := by
  have hbyte := congrArg (fun bs : List Byte => bs.getD i 0) h
  exact (Memory.getD_readBytes t.mem Config.txBase 26 i hi).symm.trans
    (hbyte.trans (Memory.getD_readBytes s.mem Config.txBase 26 i hi))

/-- The context sub-address of a link command is byte 2 of the frame in TXBUF, whether it built that frame or not (R213). -/
theorem State.ExchangeReady.contextSub_eq (h : s.ExchangeReady) (hst : s.st ≠ .idle) : contextSub s = s.txByte 2 := by
  unfold contextSub
  split
  case isTrue => rfl
  case isFalse hxfer =>
    obtain ⟨a, ha⟩ := frameSub_of_linkCommand h.linkCommand hxfer
    rw [ha]
    exact (txByte_two_of_frameInv (fun _ => h.frame) hst ha).symm

/-- A fault in TX or RX ends the exchange before anything else of the cycle is looked at (R155, R156). -/
theorem step_of_fault (hinv : s.Inv) (hrst : s.pins.rst = false) (hlnk : s.pins.lnkErr = true) (hex : s.exchanging) :
    ∃ idx, step s = .next (exchangeFail .link { s.met with txIdx := idx }).tick := by
  have hbusy : s.st ≠ .idle := fun hst => by simp [State.exchanging, hst] at hex
  have hfault : s.met.pins.lnkErr = true := by rwa [met_pins]
  rw [step_of_busy hrst hbusy, engineCycle, met_st]
  obtain hst | hst := hex
  · have hwf := (met_exchangeReady hinv (.inl hst)).unreported.memory
    rw [hst]
    dsimp only
    rw [sendCycle_of_wf ((met_st s).trans hst) hwf, txCycle_of_fault hfault]
    split
    · exact ⟨s.met.txIdx + 1, rfl⟩
    · exact ⟨s.met.txIdx, rfl⟩
  · rw [hst]
    dsimp only
    rw [receiveCycle, if_pos hfault]
    exact ⟨s.met.txIdx, rfl⟩

/-! ### The fault outside an exchange (R156) -/

section
variable {script : List Pins} {mark : Bool}

/-- A command's acceptance sees nothing of the inputs: what `exec_overlay` says, for any two links (R85). -/
theorem exec_overlay_of_command {i : Instr} (hi : i.place = .command) :
    exec i (s.overlay script mark) = overlayNext script mark (exec i s) := by
  have next : ∀ {t u : State}, t = u.overlay script mark →
      (.next t : Host.Outcome State Fault Refusal) = overlayNext script mark (.next u) := fun e => e ▸ rfl
  cases i with
  | encRaw sub =>
    simp only [exec, execEncRaw, apply_ite (overlayNext script mark)]
    rfl
  | encNum sub =>
    simp only [exec, execEncNum, apply_ite (overlayNext script mark)]
    rfl
  | decode =>
    simp only [exec, execDecode, beginCommand_overlay, decodeFrame_overlay]
    rcases decodeFrame (beginCommand 3 s) with ⟨t, _ | d⟩
    · rfl
    · rfl
  | xfer => exact next (by rw [beginCommand_overlay, startExchange_overlay])
  | remote | output => exact next (by rw [beginCommand_overlay, flagCommand_overlay])
  | setMaxv | setImax => exact next (by rw [beginCommand_overlay, numericCommand_overlay])
  | status => exact next (by rw [beginCommand_overlay, setPayload_overlay, singleShot_overlay])
  | ramp =>
    rw [exec, exec, execRamp, execRamp, apply_ite (overlayNext script mark), apply_ite (overlayNext script mark)]
    simp only [overlayNext, ← rampStep_overlay]
    rfl
  | validate buf => rfl
  | unpack buf off wid =>
    simp only [exec, execUnpack, apply_ite (overlayNext script mark)]
    rfl
  | frameRemoteControl | frameOutputEnable | frameMaxVoltage | frameVoltageSetpoint | frameCurrentLimit | frameStatusQuery
  | frameResponse => cases hi

theorem idleCycle_overlay_of_any_link (p : Pins) :
    idleCycle p (s.overlay script mark) = overlayNext script mark (idleCycle p s) := by
  have haccept : acceptCommand p.busWdata (s.overlay script mark) =
      overlayNext script mark (acceptCommand p.busWdata s) := by
    rw [acceptCommand, acceptCommand]
    rcases hdec : decode .command (bytesOfWord p.busWdata) with e | i
    · rfl
    · exact exec_overlay_of_command (s := { s with cmd := p.busWdata }) (place_of_decode_command hdec)
  rw [idleCycle, idleCycle, haccept, idleWrite_overlay, apply_ite (overlayNext script mark)]
  rfl

/-- Outside an exchange the block's cycle sees nothing of the link. -/
theorem blockCycle_overlay_of_any_link (hex : ¬ s.exchanging) (p : Pins) :
    blockCycle p (s.overlay script mark) = overlayNext script mark (blockCycle p s) := by
  obtain ⟨htx, hrx⟩ : s.st ≠ .tx ∧ s.st ≠ .rx := by simpa [State.exchanging] using hex
  rw [blockCycle, blockCycle, State.overlay_st]
  cases hst : s.st with
  | idle => exact idleCycle_overlay_of_any_link p
  | tx => exact absurd hst htx
  | rx => exact absurd hst hrx
  | settle =>
    dsimp only
    rw [busyWrite_overlay, settleCycle_overlay]
    rfl

end

/-- A cycle in which the window is closed is the same with and without a fault (R156). -/
theorem step_of_fault_outside {p : Pins} {rest : List Pins} (hinv : s.Inv) (hex : ¬ s.exchanging)
    (hs : s.script = p :: rest) (hrst : p.rst = false) :
    step { s with script := { p with lnkErr := false } :: rest } = step s := by
  have hp := pins_of_script hs
  have hclosed : s.rxw = false := by simpa using mt hinv.engine.window.mp hex
  obtain ⟨status, hw⟩ := statusWrite_frame p s
  have hserved : State.served (s.overlay ({ p with lnkErr := false } :: rest) false) =
      s.served.overlay ({ p with lnkErr := false } :: rest) false := by
    have hstatus : statusWrite { p with lnkErr := false } (s.overlay ({ p with lnkErr := false } :: rest) false) =
        (statusWrite p s).overlay ({ p with lnkErr := false } :: rest) false := statusWrite_overlay p
    calc receive (statusWrite { p with lnkErr := false } (s.overlay ({ p with lnkErr := false } :: rest) false))
      _ = receive (State.overlay ({ p with lnkErr := false } :: rest) false { s with status := status }) := by
        rw [hstatus, hw]
      _ = State.overlay ({ p with lnkErr := false } :: rest) false (receive { s with status := status }) := by
        rw [receive_of_window_closed (s := { s with status := status }) hclosed,
          receive_of_window_closed (by exact hclosed), show State.pins { s with status := status } = p from hp]
        simp [State.overlay, State.pins]
      _ = s.served.overlay ({ p with lnkErr := false } :: rest) false := by rw [State.served, hp, hw]
  obtain ⟨_, _, _, e, -⟩ := served_frame s
  have hexserved : ¬ s.served.exchanging := by rwa [e]
  obtain ⟨hscript, -⟩ := served_inputs s
  calc step { s with script := { p with lnkErr := false } :: rest }
    _ = thenTick (blockCycle p (State.served (s.overlay ({ p with lnkErr := false } :: rest) false))) := by
      rw [← State.overlay_false, step_of_not_rst (by exact hrst)]
      rfl
    _ = thenTick (overlayNext (p :: rest) false (blockCycle p s.served)) := by
      rw [hserved, blockCycle_overlay_of_any_link hexserved, thenTick_overlayNext]
    _ = step s := by
      rw [← hs, ← hscript, overlayNext_blockCycle, step_of_not_rst (by rwa [hp]), hp]

/-- Settles O28: in TX and RX the fault comes first in the cycle that follows the received byte, else no cycle looks at it. -/
theorem linkFaultEndsTheExchange : Obligations.LinkFaultEndsTheExchange := by
  intro s hinv hrst hlnk
  refine ⟨fun hex => ?_, fun hex p rest hs => step_of_fault_outside hinv hex hs (pins_of_script hs ▸ hrst)⟩
  have hbusy : s.st ≠ .idle := fun hst => by simp [State.exchanging, hst] at hex
  have hsettle : s.st ≠ .settle := fun hst => by simp [State.exchanging, hst] at hex
  have hready := met_exchangeReady hinv hex
  obtain ⟨idx, hstep⟩ := step_of_fault hinv hrst hlnk hex
  have hsub : contextSub { s.met with txIdx := idx } = s.txByte 2 :=
    (hready.contextSub_eq (by rwa [met_st])).trans (txByte_of_txFrame (txFrame_met s) (by decide))
  obtain ⟨-, hbyte⟩ := met_keeps_operands hinv hbusy
  refine ⟨_, hstep, rfl, rfl, rfl, rfl, rfl, met_opr s, hsub, ?_, ?_, txFrame_met s, met_regs s⟩
  · split_ifs at hbyte with hstored
    · obtain ⟨hvalid, -, hlt⟩ := hstored
      obtain ⟨hlen, hnew, -⟩ := hbyte
      rw [if_pos ⟨hvalid, hlt⟩]
      exact ⟨hlen, hnew⟩
    · obtain ⟨hlen, -⟩ := hbyte
      rw [if_neg fun h => hstored ⟨h.1, hsettle, h.2⟩]
      exact hlen
  · intro i hi
    split_ifs at hbyte
    · obtain ⟨-, -, hsame⟩ := hbyte
      exact hsame _ (by unfold Config.rxBase; omega)
    · obtain ⟨-, hsame⟩ := hbyte
      exact hsame _

/-! ### Waiting in RX (R154, R155, R157) -/

theorem quiet_iff (p : Pins) : hostQuiet p = true ↔ p.rst = false ∧ p.busWr = false := by simp [hostQuiet]

theorem silent_iff (p : Pins) : linkSilent p = true ↔ p.rxValid = false ∧ p.lnkErr = false := by simp [linkSilent]

/-- The timeout, with its error record, or one more cycle of waiting (R155, R157). -/
theorem waitCycle_eq (h : s.ExchangeReady) (hst : s.st = .rx) :
    waitCycle s =
      if s.regs.rxTimeout ≠ 0 ∧ s.regs.rxTimeout.toNat ≤ s.tmr.toNat + 1 then
        { s with
          status := { s.status with done := true, err := .communicationError }
          errInfo := { detail := .timeout, sub := s.txByte 2, op := s.opr }
          st := .idle, rxw := false, scnt := 0 }
      else { s with tmr := s.tmr + 1 } := by
  rw [waitCycle, exchangeFail, h.contextSub_eq (by simp [hst])]
  rfl

/-- A cycle in RX on a sound link that leaves the response incomplete. -/
theorem step_of_wait (hst : s.st = .rx) (hquiet : hostQuiet s.pins = true) (hlnk : s.pins.lnkErr = false)
    (hpart : (receive s).rxlen.toNat ≠ 26) : step s = .next (waitCycle (receive s)).tick := by
  obtain ⟨hrst, hwr⟩ := (quiet_iff _).mp hquiet
  obtain ⟨hsame, -, hpins⟩ := receive_keeps s
  have hnot : ¬ (receive s).rxlen.toNat = Config.frameLen := hpart
  have hwait : engineCycle (receive s) = receiveCycle (receive s) := by rw [engineCycle, hsame, hst]
  rw [step_of_no_write hrst (by simp [writtenReg, hwr]), hwait, receiveCycle, hpins, if_neg (by simp [hlnk]), if_neg hnot]
  rfl

/-- Settles O29: no byte is received, so the state waits as it is. -/
theorem silentCycleWaitsOrTimesOut : Obligations.SilentCycleWaitsOrTimesOut := by
  intro s hinv hst hquiet hsilent
  obtain ⟨hnone, hlnk⟩ := (silent_iff _).mp hsilent
  obtain ⟨-, hlt⟩ := hinv.engine.waiting hst
  have hrecv := receive_of_none hnone
  have hstep := step_of_wait hst hquiet hlnk (by rw [hrecv]; omega)
  rw [hrecv, waitCycle_eq (hinv.exchangeReady (.inr hst)) hst, apply_ite State.tick] at hstep
  refine ⟨_, hstep, ?_⟩
  split_ifs <;> rfl

/-- Settles O60: the byte is stored, then the state waits. -/
theorem incompleteByteIsStoredAndCounted : Obligations.IncompleteByteIsStoredAndCounted := by
  intro s hinv hst hquiet hlnk hvalid hlt
  have hopen := hinv.engine.window.mpr (.inr hst)
  have hlt26 : s.rxlen.toNat < 26 := by omega
  have hrecv := receive_of_stored hvalid hopen hlt26
  have hnext := toNat_count_succ hlt26
  have hready := (hinv.exchangeReady (.inr hst)).with_rxByte hlt26 s.pins.rxData (s.rxlen + 1)
  have hmem : ∀ a, a ≠ 0xA0 + s.rxlen.toNat →
      (s.mem.write (0xA0 + s.rxlen.toNat) s.pins.rxData).read a = s.mem.read a :=
    fun a ha => (Memory.read_write ..).trans (if_neg fun h => ha h.1)
  have hstored : (s.mem.write (0xA0 + s.rxlen.toNat) s.pins.rxData).read (0xA0 + s.rxlen.toNat) = s.pins.rxData :=
    (Memory.read_write ..).trans (if_pos ⟨rfl, isBufferByte_rx hlt26⟩)
  have hsub : (s.mem.write (0xA0 + s.rxlen.toNat) s.pins.rxData).read (Config.txBase + 2) = s.txByte 2 :=
    hmem _ (by unfold Config.txBase; omega)
  have hstep := step_of_wait hst hquiet hlnk (by rw [hrecv]; dsimp only; omega)
  rw [hrecv, waitCycle_eq hready hst] at hstep
  dsimp only [State.txByte] at hstep
  rw [hsub] at hstep
  refine ⟨_, hstep, ?_⟩
  split_ifs
  · exact ⟨hnext, hstored, hmem, rfl⟩
  · exact ⟨hnext, hstored, hmem, rfl⟩

end

end Sys2Proof.Machine
end

section
/-! Runs of an exchange (R151, R152, R157 to R159, R247, R248): silence in RX until the timeout, a link that takes no byte, and an
XFER on a link that takes and then delivers a byte in every cycle. -/

namespace Sys2Proof.Machine

section
variable {s t : State}

/-! ### Runs, step by step -/

theorem core_run_succ (M : Host.Core) (n : Nat) {s t : M.State} (h : M.step s = .next t) : M.run (n + 1) s = M.run n t := by
  rw [Host.Core.run, h]

theorem runSteps_succ (h : step s = .next t) (n : Nat) : runSteps (n + 1) s = runSteps n t :=
  core_run_succ Sys2Proof.core n h

theorem sentBytes_succ (h : step s = .next t) (n : Nat) :
    sentBytes (n + 1) s = s.sentByte.toList ++ sentBytes n t := by
  rw [sentBytes, h]

theorem State.Inv.not_done (h : s.Inv) (hst : s.st ≠ .idle) : s.status.done = false := (h.record.running hst).1

/-! ### Silence in RX (R157) -/

section
variable {p : Pins} {ps rest : List Pins} (hinv : s.Inv) (hst : s.st = .rx) (hs : s.script = p :: ps)
  (hquiet : hostQuiet p = true) (hsilent : linkSilent p = true)

include hinv hst hs hquiet hsilent

theorem step_of_silence (hgoes : ¬(s.regs.rxTimeout ≠ 0 ∧ s.regs.rxTimeout.toNat ≤ s.tmr.toNat + 1)) :
    step s = .next (State.tick { s with tmr := s.tmr + 1 }) := by
  have hp := pins_of_script hs
  obtain ⟨t, hstep, ht⟩ := silentCycleWaitsOrTimesOut s hinv hst (hp ▸ hquiet) (hp ▸ hsilent)
  rw [if_neg hgoes] at ht
  rw [hstep, ht]

theorem step_of_timeout (hexpired : s.regs.rxTimeout ≠ 0 ∧ s.regs.rxTimeout.toNat ≤ s.tmr.toNat + 1) :
    step s = .next (State.tick { s with
      status := { s.status with done := true, err := .communicationError }
      errInfo := { detail := .timeout, sub := s.txByte 2, op := s.opr }
      st := .idle, rxw := false, scnt := 0 }) := by
  have hp := pins_of_script hs
  obtain ⟨t, hstep, ht⟩ := silentCycleWaitsOrTimesOut s hinv hst (hp ▸ hquiet) (hp ▸ hsilent)
  rw [if_pos hexpired] at ht
  rw [hstep, ht]

end

/-- While the timeout is further away than the silence lasts, the block waits. -/
theorem run_of_silence (ps : List Pins) {rest : List Pins} (hinv : s.Inv) (hst : s.st = .rx) (hs : s.script = ps ++ rest)
    (hps : ∀ p ∈ ps, hostQuiet p = true ∧ linkSilent p = true)
    (hfar : s.regs.rxTimeout = 0 ∨ s.tmr.toNat + ps.length < s.regs.rxTimeout.toNat) :
    ∃ t, runSteps ps.length s = .next t ∧ t.st = .rx ∧ t.status.done = false ∧ t.rxlen = s.rxlen ∧ t.mem = s.mem := by
  induction ps generalizing s with
  | nil => exact ⟨s, rfl, hst, hinv.not_done (by simp [hst]), rfl, rfl⟩
  | cons p ps ih =>
    obtain ⟨hquiet, hsilent⟩ := hps p List.mem_cons_self
    rw [List.length_cons] at hfar ⊢
    have hstep := step_of_silence hinv hst hs hquiet hsilent fun ⟨hne, hle⟩ => by
      have hlt := hfar.resolve_left hne
      omega
    rw [runSteps_succ hstep]
    refine ih (step_inv hinv hstep) hst (by rw [State.tick_script, hs]; rfl)
      (fun q hq => hps q (List.mem_cons_of_mem _ hq)) (hfar.imp_right fun hlt => ?_)
    have hnext : (s.tmr + 1).toNat = s.tmr.toNat + 1 := toNat_word_succ (m := s.regs.rxTimeout) (by omega)
    rw [State.tick_tmr, hnext]
    exact (by omega : s.tmr.toNat + 1 + ps.length < s.regs.rxTimeout.toNat)

/-- When the silence reaches the timeout, the last of its cycles ends the exchange. -/
theorem run_of_timeout (ps : List Pins) {rest : List Pins} (hinv : s.Inv) (hst : s.st = .rx) (hs : s.script = ps ++ rest)
    (hps : ∀ p ∈ ps, hostQuiet p = true ∧ linkSilent p = true)
    (hne : s.regs.rxTimeout ≠ 0) (hlast : s.tmr.toNat + ps.length = s.regs.rxTimeout.toNat) :
    ∃ t, runSteps ps.length s = .next t ∧ t.st = .idle ∧ t.status.done = true ∧ t.status.err = .communicationError ∧
      t.errInfo.detail = .timeout ∧ t.rxlen = s.rxlen ∧ t.mem = s.mem := by
  induction ps generalizing s with
  | nil =>
    have hlt := hinv.engine.timer hst hne
    exact absurd hlast hlt.ne
  | cons p ps ih =>
    obtain ⟨hquiet, hsilent⟩ := hps p List.mem_cons_self
    rw [List.length_cons] at hlast ⊢
    by_cases hend : s.regs.rxTimeout.toNat ≤ s.tmr.toNat + 1
    · have hstep := step_of_timeout hinv hst hs hquiet hsilent ⟨hne, hend⟩
      obtain rfl : ps = [] := List.length_eq_zero_iff.mp (by omega)
      exact ⟨_, runSteps_succ hstep 0, rfl, rfl, rfl, rfl, rfl, rfl⟩
    · have hstep := step_of_silence hinv hst hs hquiet hsilent fun h => hend h.2
      have hnext : (s.tmr + 1).toNat = s.tmr.toNat + 1 := toNat_word_succ (m := s.regs.rxTimeout) (by omega)
      rw [runSteps_succ hstep]
      refine ih (step_inv hinv hstep) hst (by rw [State.tick_script, hs]; rfl)
        (fun q hq => hps q (List.mem_cons_of_mem _ hq)) hne ?_
      rw [State.tick_tmr, hnext]
      exact (by omega : s.tmr.toNat + 1 + ps.length = s.regs.rxTimeout.toNat)

/-- Settles O30: TMR starts at 0, so the silence before the timeout lasts RX_TIMEOUT cycles. -/
theorem timeoutComesAfterExactlyItsCycles : Obligations.TimeoutComesAfterExactlyItsCycles := by
  intro s ps rest hinv hst htmr hs hps
  have hzero : s.tmr.toNat = 0 := congrArg BitVec.toNat htmr
  refine ⟨fun hfar => run_of_silence ps hinv hst hs hps (by rwa [hzero, Nat.zero_add]), fun hne hlen => ?_⟩
  exact run_of_timeout ps hinv hst hs hps hne (by rwa [hzero, Nat.zero_add])

/-! ### A link that takes no byte (R151, R247) -/

/-- A cycle in TX in which the link takes no byte: only this cycle's inputs are handled. -/
theorem step_of_not_ready (hinv : s.Inv) (hst : s.st = .tx) (hrst : s.pins.rst = false) (hlnk : s.pins.lnkErr = false)
    (hready : s.pins.txReady = false) : step s = .next s.met.tick := by
  have hwf := (met_exchangeReady hinv (.inl hst)).unreported.memory
  have hsend : engineCycle s.met = sendCycle s.met := by rw [engineCycle, met_st, hst]
  rw [step_of_busy hrst (by simp [hst]), hsend, sendCycle_of_wf ((met_st s).trans hst) hwf,
    txCycle_of_not_ready (by rwa [met_pins]) (by rwa [met_pins])]
  rfl

/-- Settles O31: each cycle keeps TXIDX and TXBUF, and no byte is taken. -/
theorem transmissionWaitsForTheLink : Obligations.TransmissionWaitsForTheLink := by
  intro s ps rest hinv hst hs hps
  induction ps generalizing s with
  | nil => exact ⟨s, rfl, hst, rfl, rfl, hinv.not_done (by simp [hst]), rfl⟩
  | cons p ps ih =>
    obtain ⟨hrst, hlnk, hready⟩ := hps p List.mem_cons_self
    rw [← pins_of_script hs] at hrst hlnk hready
    have hstep := step_of_not_ready hinv hst hrst hlnk hready
    have hscript : s.met.tick.script = ps ++ rest := by
      obtain ⟨_, _, _, e⟩ := met_frame s
      rw [State.tick_script, e, hs]
      rfl
    obtain ⟨t, hrun, htst, hidx, hframe, hdone, hsent⟩ := ih s.met.tick (step_inv hinv hstep) ((met_st s).trans hst)
      hscript fun q hq => hps q (List.mem_cons_of_mem _ hq)
    refine ⟨t, (runSteps_succ hstep _).trans hrun, htst, hidx.trans (met_txIdx s), hframe.trans (txFrame_met s), hdone, ?_⟩
    rw [List.length_cons, sentBytes_succ hstep, hsent, State.sentByte, if_neg (by simp [hready])]
    rfl

end

end Sys2Proof.Machine
end

section
/-! A raw exchange from its start to its end (R248): an XFER on a link that takes a byte in each of 26 cycles and then delivers one in
each of 26, told by what stands after each cycle. -/

namespace Sys2Proof.Machine

section
variable {s t : State}

/-! ### Runs told cycle by cycle -/

/-- Where `after k` holds k cycles on and each of its cycles leads to the next, sending what `sends` says, runs follow it. -/
theorem run_of_stages {after : Nat → State → Prop} {sends : Nat → Option Byte} {last : Nat}
    (hstep : ∀ k, k < last → ∀ t, after k t → t.sentByte = sends k ∧ ∃ u, step t = .next u ∧ after (k + 1) u)
    {n k : Nat} (hk : k + n ≤ last) (h : after k t) :
    (∃ u, runSteps n t = .next u ∧ after (k + n) u) ∧ sentBytes n t = (List.range' k n).filterMap sends := by
  induction n generalizing k t with
  | zero => exact ⟨⟨t, rfl, h⟩, rfl⟩
  | succ n ih =>
    obtain ⟨hsent, u, hu, hafter⟩ := hstep k (by omega) t h
    obtain ⟨⟨v, hrun, hv⟩, hbytes⟩ := ih (k := k + 1) (by omega) hafter
    refine ⟨⟨v, (runSteps_succ hu n).trans hrun, by rwa [Nat.add_right_comm] at hv⟩, ?_⟩
    rw [sentBytes_succ hu, hbytes, hsent, List.range'_succ, List.filterMap_cons]
    cases sends k <;> rfl

/-! ### The stages of the exchange -/

/-- The XFER of the idle block `s` runs in `t`. -/
structure XferRunning (s t : State) : Prop where
  cmd : t.cmd = 4
  opr : t.opr = 4
  status : t.status = { s.status with done := false, err := .ok }
  regs : t.regs = s.regs
  dec : t.dec = s.dec
  window : t.rxw = true
  frame : t.txFrame = s.txFrame

/-- `i` bytes are sent and none is received. -/
structure XferSending (s : State) (i : Nat) (t : State) : Prop extends XferRunning s t where
  script : t.script = s.script.drop (1 + i)
  st : t.st = .tx
  txIdx : t.txIdx.toNat = i
  rxlen : t.rxlen = 0

/-- The frame is sent, and the first `i` bytes of the response are received, one in each cycle. -/
structure XferReceiving (s : State) (resp : List Byte) (i : Nat) (t : State) : Prop extends XferRunning s t where
  script : t.script = s.script.drop (27 + i)
  st : t.st = .rx
  tmr : t.tmr.toNat = i
  rxlen : t.rxlen.toNat = i
  bytes : ∀ j, j < i → t.rxByte j = resp.getD j 0

/-- The response is received, and the command has completed without decode. -/
structure XferDone (s : State) (resp : List Byte) (t : State) : Prop where
  cmd : t.cmd = 4
  st : t.st = .idle
  status : t.status = { s.status with done := true, err := .ok }
  rxlen : t.rxlen = 26
  response : t.rxFrame = resp
  frame : t.txFrame = s.txFrame
  dec : t.dec = s.dec

/-- What stands after `k` cycles of the exchange. -/
def XferAfter (s : State) (resp : List Byte) (k : Nat) (t : State) : Prop :=
  (k = 0 ∧ t = s) ∨ (∃ i, i < 26 ∧ k = 1 + i ∧ XferSending s i t) ∨
  (∃ i, i < 26 ∧ k = 27 + i ∧ XferReceiving s resp i t) ∨ (k = 53 ∧ XferDone s resp t)

/-- The byte the link takes in cycle `k`. -/
def xferSends (s : State) (k : Nat) : Option Byte := if 1 ≤ k ∧ k ≤ 26 then some (s.txByte (k - 1)) else none

/-- The inputs of the exchange. -/
structure XferInputs (s : State) (resp : List Byte) : Prop where
  command : s.pins = hostWritePins 0x04 0x00000004
  taking : ∀ i, i < 26 → s.script[1 + i]? = some (linkPins true none)
  delivering : ∀ i, i < 26 → s.script[27 + i]? = some (linkPins false (some (resp.getD i 0)))

theorem xferInputs_of_script {resp : List Byte} {rest : List Pins} (hlen : resp.length = 26)
    (h : s.script = hostWritePins 0x04 0x00000004 ::
      (List.replicate 26 (linkPins true none) ++ resp.map (fun b => linkPins false (some b)) ++ rest)) :
    XferInputs s resp := by
  refine ⟨pins_of_script h, fun i hi => ?_, fun i hi => ?_⟩
  · rw [h, Nat.add_comm, List.getElem?_cons_succ, List.append_assoc, List.getElem?_append_left (by simpa using hi),
      List.getElem?_replicate, if_pos hi]
  · rw [h, show 27 + i = (26 + i) + 1 by omega, List.getElem?_cons_succ, List.append_assoc,
      List.getElem?_append_right (by simp), List.getElem?_append_left (by simp; omega)]
    simp [hlen, hi]

theorem script_of_getElem? {l : List Pins} {k : Nat} {p : Pins} (h : l[k]? = some p) : l.drop k = p :: l.drop (k + 1) := by
  obtain ⟨hk, rfl⟩ := List.getElem?_eq_some_iff.mp h
  exact List.drop_eq_getElem_cons hk

/-! ### The cycles of the exchange -/

/-- A transmission is the same cycle whether TXBUF holds a frame or not (R159), up to the memory's listing. -/
theorem sendCycle_eq_of_reads (hst : s.st = .tx) :
    ∃ m : Memory, (∀ a, m.read a = s.mem.read a) ∧ sendCycle s = .next (txCycle { s with mem := m }) := by
  unfold sendCycle
  split
  case h_1 i hi =>
    obtain ⟨hsync, a, hcode, rfl⟩ := header_of_decodeCommandFrame (b0 := s.mem.read Config.txBase) hi
    exact ⟨_, (putHeader_standing hsync rfl hcode).memory, exec_ofFrame_of_tx a _ hst⟩
  case h_2 => exact ⟨s.mem, fun _ => rfl, rfl⟩

/-- A complete response is taken the same whether RXBUF holds a frame or not (R159), up to the memory's listing. -/
theorem answerCycle_eq_of_reads (hst : s.st = .rx) :
    ∃ m : Memory, (∀ a, m.read a = s.mem.read a) ∧ answerCycle s = .next (exchangeOk { s with mem := m }) := by
  unfold answerCycle
  split
  case h_1 i hi =>
    obtain ⟨hsync, rfl⟩ := header_of_decodeResponseFrame (b0 := s.mem.read Config.rxBase) hi
    refine ⟨_, (putHeader_standing hsync rfl rfl).memory, ?_⟩
    rw [exec_frameResponse, takeResponse, if_pos hst]
    rfl
  case h_2 => exact ⟨s.mem, fun _ => rfl, rfl⟩

theorem txFrame_tick (s : State) : s.tick.txFrame = s.txFrame := rfl

/-- The acceptance of XFER (R158, R159). -/
theorem xferSending_of_accept {resp : List Byte} (hst : s.st = .idle) (hin : XferInputs s resp) :
    ∃ u, step s = .next u ∧ XferSending s 0 u := by
  have hp := hin.command
  have hdec : decode .command (bytesOfWord 0x00000004) = .ok .xfer := decodeOfEncodeIsTheInstruction .xfer rfl
  have hnone : receive s = s := receive_of_none (by rw [hp]; rfl)
  have hstep : step s = .next (startExchange (beginCommand 4 { s with cmd := 0x00000004 })).tick := by
    rw [step_of_cmd_write (by rw [hp]; rfl) hst (by rw [hp]; rfl) (by rw [hp]; rfl), hnone, hp,
      show (hostWritePins 0x04 0x00000004).busWdata = 0x00000004 from rfl, acceptCommand_of_ok hdec]
    rfl
  refine ⟨_, hstep, ⟨rfl, rfl, rfl, rfl, rfl, rfl, ?_⟩, ?_, rfl, rfl, rfl⟩
  · rw [txFrame_tick, txFrame_startExchange]
    rfl
  · exact List.drop_one.symm

section
variable {resp : List Byte} {i : Nat} (hin : XferInputs s resp) (hi : i < 26)

include hin hi

/-- A cycle in which the link takes a byte. -/
theorem step_of_taking (h : XferSending s i t) :
    ∃ m : Memory, (∀ a, m.read a = t.mem.read a) ∧ step t = .next (txCycle { t with mem := m }).tick ∧
      t.pins = linkPins true none ∧ t.script.tail = s.script.drop (1 + (i + 1)) := by
  have hscript := h.script.trans (script_of_getElem? (hin.taking i hi))
  have hp := pins_of_script hscript
  obtain ⟨m, hm, hsend⟩ := sendCycle_eq_of_reads h.st
  have hnone : receive t = t := receive_of_none (by rw [hp]; rfl)
  have hcycle : engineCycle t = sendCycle t := by rw [engineCycle, h.st]
  refine ⟨m, hm, ?_, hp, by rw [hscript]; rfl⟩
  rw [step_of_no_write (by rw [hp]; rfl) (by rw [hp]; rfl), hnone, hcycle, hsend]
  rfl

theorem sentByte_of_sending (h : XferSending s i t) : t.sentByte = some (s.txByte i) := by
  obtain ⟨-, -, -, hp, -⟩ := step_of_taking hin hi h
  refine (sentByte_eq_some t _).mpr ⟨by rw [hp]; rfl, h.st, by rw [hp]; rfl, ?_⟩
  rw [h.txIdx]
  exact txByte_of_txFrame h.frame hi

/-- A byte before the last one. -/
theorem xferSending_succ (h : XferSending s i t) (hmore : i ≠ 25) : ∃ u, step t = .next u ∧ XferSending s (i + 1) u := by
  obtain ⟨m, hm, hstep, hp, htail⟩ := step_of_taking hin hi h
  have hidx := h.txIdx
  have hnext : (t.txIdx + 1).toNat = i + 1 := by rw [toNat_count_succ (by omega), hidx]
  rw [txCycle_of_byte (s := { t with mem := m }) (by exact hp ▸ rfl) (by exact hp ▸ rfl) (by dsimp only; omega)] at hstep
  refine ⟨_, hstep, ⟨h.cmd, h.opr, h.status, h.regs, h.dec, h.window, ?_⟩, htail, h.st, hnext, h.rxlen⟩
  exact (Memory.readBytes_congr _ _ _ _ fun j _ => hm _).trans h.frame

end

/-- The last byte starts the wait. -/
theorem xferReceiving_of_last {resp : List Byte} (hin : XferInputs s resp) (h : XferSending s 25 t) :
    ∃ u, step t = .next u ∧ XferReceiving s resp 0 u := by
  obtain ⟨m, hm, hstep, hp, htail⟩ := step_of_taking hin (by decide) h
  have hidx : t.txIdx = 25 := BitVec.eq_of_toNat_eq h.txIdx
  have hlen := h.rxlen
  rw [txCycle_of_last_byte (s := { t with mem := m }) (by exact hp ▸ rfl) (by exact hp ▸ rfl) hidx
    (by dsimp only; rw [hlen]; decide)] at hstep
  refine ⟨_, hstep, ⟨h.cmd, h.opr, h.status, h.regs, h.dec, h.window, ?_⟩, htail, rfl, rfl, ?_,
    fun j hj => absurd hj (Nat.not_lt_zero j)⟩
  · exact (Memory.readBytes_congr _ _ _ _ fun j _ => hm _).trans h.frame
  · exact congrArg BitVec.toNat hlen

section
variable {resp : List Byte} {i : Nat} (hin : XferInputs s resp) (hi : i < 26)

include hin hi

/-- A received byte of the response. -/
theorem receive_of_delivering (h : XferReceiving s resp i t) :
    t.pins = linkPins false (some (resp.getD i 0)) ∧ t.script.tail = s.script.drop (27 + (i + 1)) ∧
      ∃ (m : Memory) (n : BitVec 5), receive t = { t with mem := m, rxlen := n } ∧ n.toNat = i + 1 ∧
        (∀ j, j < i + 1 → m.read (Config.rxBase + j) = resp.getD j 0) ∧
        m.readBytes Config.txBase Config.frameLen = t.txFrame := by
  have hscript := h.script.trans (script_of_getElem? (hin.delivering i hi))
  have hp := pins_of_script hscript
  have hlen := h.rxlen
  refine ⟨hp, by rw [hscript]; rfl, _, _, receive_of_stored (by rw [hp]; rfl) h.window (by omega), ?_, fun j hj => ?_, ?_⟩
  · rw [toNat_count_succ (by omega), hlen]
  · rw [Memory.read_write, hlen]
    by_cases hj' : j = i
    · rw [if_pos ⟨by rw [hj']; rfl, isBufferByte_rx hi⟩, hp, hj']
      rfl
    · rw [if_neg fun hh => hj' (Nat.add_left_cancel hh.1)]
      exact h.bytes j (by omega)
  · exact Memory.readBytes_write_disjoint _ _ _ _ _ (.inl (by unfold Config.txBase Config.frameLen; omega))

/-- A byte before the last one of the response: the timeout is not reached. -/
theorem xferReceiving_succ (htime : s.regs.rxTimeout = 0 ∨ 26 ≤ s.regs.rxTimeout.toNat) (h : XferReceiving s resp i t)
    (hmore : i ≠ 25) : ∃ u, step t = .next u ∧ XferReceiving s resp (i + 1) u := by
  obtain ⟨hp, htail, m, n, hrecv, hn, hbytes, hframe⟩ := receive_of_delivering hin hi h
  have htmr := h.tmr
  have hgoes : ¬(t.regs.rxTimeout ≠ 0 ∧ t.regs.rxTimeout.toNat ≤ t.tmr.toNat + 1) := by
    rw [h.regs]
    rintro ⟨hne, hle⟩
    have hfar := htime.resolve_left hne
    omega
  have hnext : (t.tmr + 1).toNat = i + 1 := by
    rw [← htmr]
    exact BitVec.toNat_add_of_lt (by simp; omega)
  have hstep := step_of_wait h.st (by rw [hp]; rfl) (by rw [hp]; rfl) (by rw [hrecv]; dsimp only; omega)
  rw [hrecv, waitCycle, if_neg (by exact hgoes)] at hstep
  exact ⟨_, hstep, ⟨h.cmd, h.opr, h.status, h.regs, h.dec, h.window, hframe.trans h.frame⟩, htail, h.st, hnext, hn, hbytes⟩

end

/-- A range is a list when its bytes are. -/
theorem readBytes_eq_of_getD {m : Memory} {a : Nat} {bs : List Byte}
    (h : ∀ j, j < bs.length → m.read (a + j) = bs.getD j 0) : m.readBytes a bs.length = bs := by
  refine List.ext_getElem (by simp) fun j hj hj' => ?_
  have hbyte := (Memory.getD_readBytes m a bs.length j hj').trans (h j hj')
  rwa [List.getD_eq_getElem _ _ hj, List.getD_eq_getElem _ _ hj'] at hbyte

/-- The last byte of the response completes the command at its edge. -/
theorem xferDone_of_last {resp : List Byte} (hlen : resp.length = 26) (hin : XferInputs s resp)
    (h : XferReceiving s resp 25 t) : ∃ u, step t = .next u ∧ XferDone s resp u := by
  obtain ⟨hp, -, m, n, hrecv, hn, hbytes, hframe⟩ := receive_of_delivering hin (by decide) h
  obtain ⟨hst, -, hpins⟩ := receive_keeps t
  have hfull : (receive t).rxlen.toNat = Config.frameLen := by rw [hrecv]; exact hn
  obtain ⟨m', hm', hanswer⟩ := answerCycle_eq_of_reads (hst.trans h.st)
  have hcycle : engineCycle (receive t) = answerCycle (receive t) := by
    have hrx : engineCycle (receive t) = receiveCycle (receive t) := by rw [engineCycle, hst, h.st]
    rw [hrx, receiveCycle, hpins, hp, if_neg (by simp [linkPins]), if_pos hfull]
  have hopr : State.opr { receive t with mem := m' } = 4 := by rw [hrecv]; exact h.opr
  have hstep := step_of_no_write (s := t) (by rw [hp]; rfl) (by rw [hp]; rfl)
  rw [hcycle, hanswer, exchangeOk_of_xfer hopr, hrecv] at hstep
  rw [hrecv] at hm'
  refine ⟨_, hstep, h.cmd, rfl, ?_, BitVec.eq_of_toNat_eq hn, ?_, ?_, h.dec⟩
  · exact congrArg (fun st : StatusBits => { st with done := true }) h.status
  · have hrx : m'.readBytes Config.rxBase resp.length = resp :=
      readBytes_eq_of_getD fun j hj => (hm' _).trans (hbytes j (by omega))
    rw [hlen] at hrx
    exact hrx
  · exact ((Memory.readBytes_congr _ _ _ _ fun j _ => hm' _).trans hframe).trans h.frame

/-! ### The whole exchange -/

theorem xferSends_of_sending {i : Nat} (hi : i < 26) : xferSends s (1 + i) = some (s.txByte i) := by
  rw [xferSends, if_pos (by omega), Nat.add_sub_cancel_left]

theorem xferSends_of_not_sending {k : Nat} (hk : k = 0 ∨ 27 ≤ k) : xferSends s k = none := if_neg (by omega)

/-- Each cycle of the exchange leads to what stands after the next one. -/
theorem xferAfter_step {resp : List Byte} (hst : s.st = .idle) (hlen : resp.length = 26)
    (htime : s.regs.rxTimeout = 0 ∨ 26 ≤ s.regs.rxTimeout.toNat) (hin : XferInputs s resp) (k : Nat) (hk : k < 53)
    (t : State) (h : XferAfter s resp k t) :
    t.sentByte = xferSends s k ∧ ∃ u, step t = .next u ∧ XferAfter s resp (k + 1) u := by
  have unsent : ∀ t : State, t.st ≠ .tx → t.sentByte = none := fun t hne =>
    Option.eq_none_iff_forall_ne_some.mpr fun b hb => by
      obtain ⟨-, htx, -⟩ := (sentByte_eq_some t b).mp hb
      exact hne htx
  obtain ⟨rfl, rfl⟩ | ⟨i, hi, rfl, h⟩ | ⟨i, hi, rfl, h⟩ | ⟨rfl, -⟩ := h
  · obtain ⟨u, hu, h'⟩ := xferSending_of_accept hst hin
    exact ⟨(unsent _ (by simp [hst])).trans (xferSends_of_not_sending (.inl rfl)).symm, u, hu,
      .inr (.inl ⟨0, by decide, rfl, h'⟩)⟩
  · refine ⟨(sentByte_of_sending hin hi h).trans (xferSends_of_sending hi).symm, ?_⟩
    by_cases hmore : i = 25
    · subst hmore
      obtain ⟨u, hu, h'⟩ := xferReceiving_of_last hin h
      exact ⟨u, hu, .inr (.inr (.inl ⟨0, by decide, rfl, h'⟩))⟩
    · obtain ⟨u, hu, h'⟩ := xferSending_succ hin hi h hmore
      exact ⟨u, hu, .inr (.inl ⟨i + 1, by omega, by omega, h'⟩)⟩
  · refine ⟨(unsent t (by simp [h.st])).trans (xferSends_of_not_sending (.inr (by omega))).symm, ?_⟩
    by_cases hmore : i = 25
    · subst hmore
      obtain ⟨u, hu, h'⟩ := xferDone_of_last hlen hin h
      exact ⟨u, hu, .inr (.inr (.inr ⟨rfl, h'⟩))⟩
    · obtain ⟨u, hu, h'⟩ := xferReceiving_succ hin hi htime h hmore
      exact ⟨u, hu, .inr (.inr (.inl ⟨i + 1, by omega, by omega, h'⟩))⟩
  · exact absurd hk (Nat.lt_irrefl 53)

/-- Between its acceptance and its last edge the command runs. -/
theorem XferAfter.running {resp : List Byte} {k : Nat} (h : XferAfter s resp k t) (hlow : 1 ≤ k) (hhigh : k ≤ 52) :
    t.busy = true ∧ t.status.done = false := by
  obtain ⟨rfl, -⟩ | ⟨i, -, -, h⟩ | ⟨i, -, -, h⟩ | ⟨rfl, -⟩ := h
  · omega
  · exact ⟨by simp [State.busy, h.st], by rw [h.status]⟩
  · exact ⟨by simp [State.busy, h.st], by rw [h.status]⟩
  · omega

theorem XferAfter.done {resp : List Byte} (h : XferAfter s resp 53 t) : XferDone s resp t := by
  obtain ⟨hk, -⟩ | ⟨i, hi, hk, -⟩ | ⟨i, hi, hk, -⟩ | ⟨-, h⟩ := h
  · omega
  · omega
  · omega
  · exact h

/-- Settles O32: one acceptance, 26 cycles of transmission and 26 of the response, each told by what stands after it. -/
theorem xferCompletesAtEdge52 : Obligations.XferCompletesAtEdge52 := by
  intro s resp rest hst hlen htime hscript
  have hin := xferInputs_of_script hlen hscript
  have hrun {n : Nat} (hn : n ≤ 53) :=
    run_of_stages (xferAfter_step hst hlen htime hin) (k := 0) (n := n) (t := s) (by omega) (.inl ⟨rfl, rfl⟩)
  refine ⟨?_, ?_, fun k hlow hhigh => ?_⟩
  · obtain ⟨⟨t, ht, hafter⟩, -⟩ := hrun (n := 53) (by decide)
    have hdone : XferDone s resp t := hafter.done
    exact ⟨t, ht, hdone.st, by rw [hdone.status], by rw [hdone.status], hdone.cmd, hdone.rxlen, hdone.response,
      hdone.frame, hdone.dec, by rw [hdone.status]⟩
  · obtain ⟨-, hsent⟩ := hrun (n := 53) (by decide)
    rw [hsent]
    rfl
  · obtain ⟨⟨t, ht, hafter⟩, -⟩ := hrun (n := k) (by omega)
    rw [Nat.zero_add] at hafter
    exact ⟨t, ht, hafter.running hlow hhigh⟩

end

end Sys2Proof.Machine
end

section
/-! The ramp, operation by operation (R170 to R174): the next position, a ramp step, the acceptance of RAMP, a settle cycle, and
the response to a step. -/

namespace Sys2Proof.Machine

section
variable {s t : State}

/-! ### The next position (R171 part 1, R172) -/

theorem isNextPosition_nextPosition (r : RampRegs) : isNextPosition r (nextPosition r).1 (nextPosition r).2 := by
  unfold isNextPosition nextPosition
  split_ifs with hup hreach hreach
  · exact ⟨rfl, rfl⟩
  · have htarget := r.target.isLt
    exact ⟨BitVec.toNat_add_of_lt (by omega), rfl⟩
  · exact ⟨rfl, rfl⟩
  · exact ⟨BitVec.toNat_sub_of_le (BitVec.le_def.mpr (by omega)), rfl⟩

/-- An upward step goes to the target, or by R_S to a position short of it. -/
theorem isNextPosition.of_up {r : RampRegs} {c : Word} {final : Bool} (h : isNextPosition r c final) (hup : r.up = true) :
    (c = r.target ∧ final = true ∧ r.target.toNat ≤ r.pos.toNat + r.step.toNat) ∨
    (c.toNat < r.target.toNat ∧ final = false ∧ c.toNat = r.pos.toNat + r.step.toNat) := by
  rw [isNextPosition, if_pos hup] at h
  split at h
  case isTrue hreach => exact .inl ⟨h.1, h.2, hreach⟩
  case isFalse hshort => exact .inr ⟨by omega, h.2, h.1⟩

/-- A downward step goes to the target, or by R_S to a position short of it. -/
theorem isNextPosition.of_down {r : RampRegs} {c : Word} {final : Bool} (h : isNextPosition r c final) (hup : r.up = false) :
    (c = r.target ∧ final = true ∧ r.pos.toNat ≤ r.target.toNat + r.step.toNat) ∨
    (r.target.toNat < c.toNat ∧ final = false ∧ c.toNat + r.step.toNat = r.pos.toNat) := by
  rw [isNextPosition, if_neg (by simp [hup])] at h
  split at h
  case isTrue hreach => exact .inl ⟨h.1, h.2, by omega⟩
  case isFalse hshort => exact .inr ⟨by omega, h.2, by omega⟩

/-- Settles O42: a step goes to the target within its reach, or by R_S to a position short of it. -/
theorem nextPositionNeverOvershoots : Obligations.NextPositionNeverOvershoots := by
  intro r hstep
  have hnext := isNextPosition_nextPosition r
  have hpositive : 0 < r.step.toNat := Nat.pos_of_ne_zero fun h => hstep (BitVec.eq_of_toNat_eq h)
  refine ⟨fun hup hlt => ?_, fun hup hlt => ?_⟩
  · obtain ⟨hc, hf, hreach⟩ | ⟨hshort, hf, hc⟩ := hnext.of_up hup
    · rw [hc, hf]
      exact ⟨hlt, le_rfl, hreach, by simp, by simp⟩
    · have hne : (nextPosition r).1 ≠ r.target := fun h => by simp [h] at hshort
      exact ⟨by omega, hshort.le, hc.le, by simp [hf, hne], fun _ => hc⟩
  · obtain ⟨hc, hf, hreach⟩ | ⟨hshort, hf, hc⟩ := hnext.of_down hup
    · rw [hc, hf]
      exact ⟨hlt, le_rfl, hreach, by simp, by simp⟩
    · have hne : (nextPosition r).1 ≠ r.target := fun h => by simp [h] at hshort
      exact ⟨by omega, hshort.le, hc.ge, by simp [hf, hne], fun _ => hc⟩

/-! ### A ramp step (R171 parts 1 to 4) -/

/-- A numeric frame built and sent reaches the buffers, PAYLEN and the counters of the exchange (R114, R158). -/
theorem startExchange_buildNumeric_frame (sub : Byte) (v : Word) (s : State) :
    startExchange (buildNumeric sub v s) =
      { s with
        mem := (startExchange (buildNumeric sub v s)).mem, paylen := (startExchange (buildNumeric sub v s)).paylen
        rxlen := 0, rxw := true, txIdx := 0, tmr := 0, st := .tx } := by
  dsimp only [startExchange, buildNumeric, buildFrame, setPayload]

/-- Starting an exchange leaves the frame in TXBUF. -/
theorem holdsFrame_startExchange_buildNumeric (sub : Byte) (v : Word) (s : State) :
    (startExchange (buildNumeric sub v s)).holdsFrame s.regs.devAddr sub (numericPayload v) := by
  have hle := length_numericPayload_le v
  refine holdsFrame_of_txFrame hle ?_
  rw [txFrame_startExchange]
  exact txFrame_buildFrame _ _ _ _ hle

/-- Starting an exchange leaves the payload in PAYBUF and PAYLEN. -/
theorem State.holdsPayload.startExchange {pay : List Byte} (h : s.holdsPayload pay) : (startExchange s).holdsPayload pay := by
  obtain ⟨hlen, hbytes, hzeros⟩ := h
  have hkept : ∀ i, (Machine.startExchange s).payByte i = s.payByte i := fun i =>
    read_startExchange_outside s _ (by unfold Config.payBase; omega)
  exact ⟨hlen, fun i hi => (hkept i).trans (hbytes i hi), fun i hi hi22 => (hkept i).trans (hzeros i hi hi22)⟩

theorem inRange_iff (c offset : Word) :
    inRange (commandedValue c offset) = true ↔
      0 ≤ (c.toNat : Int) + offset.toInt ∧ (c.toNat : Int) + offset.toInt < 2 ^ 32 := by
  rw [inRange, commandedValue, Bool.and_eq_true, decide_eq_true_iff, decide_eq_true_iff]

/-- The number that is packed is the commanded value itself. -/
theorem toNat_ofInt_commandedValue {c offset : Word} (h : inRange (commandedValue c offset) = true) :
    (BitVec.ofInt 32 (commandedValue c offset)).toNat = ((c.toNat : Int) + offset.toInt).toNat := by
  obtain ⟨hlow, hhigh⟩ := (inRange_iff c offset).mp h
  rw [BitVec.toNat_ofInt, commandedValue]
  omega

theorem isRampStep_rampStep (s : State) : isRampStep s (rampStep s) := by
  refine ⟨(nextPosition s.ramp).1, (nextPosition s.ramp).2, isNextPosition_nextPosition s.ramp, ?_⟩
  have hrange := inRange_iff (nextPosition s.ramp).1 s.ramp.offset
  obtain ⟨hin, e⟩ | ⟨hout, e⟩ := rampStep_cases s
  · have hpay := isNumberPayload_numericPayload
      (BitVec.ofInt 32 (commandedValue (nextPosition s.ramp).1 s.ramp.offset))
    rw [toNat_ofInt_commandedValue hin] at hpay
    rw [if_pos (hrange.mp hin), e]
    exact ⟨⟨_, hpay, (holdsPayload_buildNumeric _ _ _).startExchange,
      holdsFrame_startExchange_buildNumeric _ _ (aimed s)⟩, responseCleared_startExchange _,
      startExchange_buildNumeric_frame _ _ (aimed s)⟩
  · rw [if_neg (fun h => Bool.false_ne_true (hout.symm.trans (hrange.mpr h))), e]
    rfl

theorem isRampStep.keeps_decode (h : isRampStep s t) : t.chk = s.chk ∧ t.dec = s.dec := by
  obtain ⟨c, f, -, h⟩ := h
  split at h
  · obtain ⟨-, -, e⟩ := h
    rw [e]
    exact ⟨rfl, rfl⟩
  · rw [h]
    exact ⟨rfl, rfl⟩

/-! ### RAMP at acceptance (R170) -/

/-- Settles O40: the latch, then the two refusals of a step in their order, then the first step. -/
theorem rampStartsItsFirstStep : Obligations.RampStartsItsFirstStep := by
  intro s
  by_cases hequal : s.regs.rampFrom = s.regs.rampTo
  · refine ⟨completeOk (rampLatch (beginCommand 10 s)), _, ?_, rfl, (if_pos hequal).mpr rfl⟩
    exact if_pos hequal
  · by_cases hzero : s.regs.rampStep = 0
    · refine ⟨raiseError .argumentError .zeroStep 0x23 (rampLatch (beginCommand 10 s)), _, ?_, rfl,
        (if_neg hequal).mpr ((if_pos hzero).mpr rfl)⟩
      exact (if_neg hequal).trans (if_pos hzero)
    · refine ⟨_, _, (if_neg hequal).trans (if_neg hzero), rfl, (if_neg hequal).mpr ((if_neg hzero).mpr ?_)⟩
      exact isRampStep_rampStep _

/-! ### The settle wait (R153, R156, R174) -/

/-- With the window closed a byte is a stray (R56, R153). -/
theorem receive_of_closed (hclosed : s.rxw = false) :
    receive s = { s with status := { s.status with stray := s.status.stray || s.pins.rxValid } } := by
  obtain ⟨hnone, e⟩ | ⟨-, hopen, -⟩ | ⟨hvalid, -, e⟩ := receive_cases s
  · rw [e, hnone, Bool.or_false]
  · simp [hclosed] at hopen
  · rw [e, hvalid, Bool.or_true]

theorem State.EngineInv.rxw_eq_false_of_settle (h : s.EngineInv) (hst : s.st = .settle) : s.rxw = false := by
  have hno : ¬ s.exchanging := by simp [State.exchanging, hst]
  simpa using mt h.window.mp hno

/-- Settles O41: the byte is a stray, then the block counts down, ends or steps. -/
theorem settleCountsThenGoesOn : Obligations.SettleCountsThenGoesOn := by
  intro s u hinv hst hrst hwr hu
  have hrecv : receive s = u := (receive_of_closed (hinv.engine.rxw_eq_false_of_settle hst)).trans hu.symm
  have hstep : step s = .next (settleCycle u).tick := by
    rw [step_of_no_write hrst (by simp [writtenReg, hwr]), hrecv, hu, engineCycle, hst]
    rfl
  refine ⟨_, hstep, ?_⟩
  subst hu
  obtain ⟨hmore, e⟩ | ⟨hlast, hfinal, e⟩ | ⟨hlast, hfinal, e⟩ := settleCycle_cases _
  · rw [e, if_pos (by exact hmore)]
  · rw [e, if_neg (by exact hlast.not_gt), if_pos (by exact hfinal)]
    rfl
  · rw [e, if_neg (by exact hlast.not_gt), if_neg (fun h => by simp [h] at hfinal)]
    exact isRampStep_rampStep _

/-! ### The response to a step (R131, R171 parts 4 to 6) -/

theorem checkVerdict_of_sameMemory (h : sameMemory s t) (b : BufSel) : checkVerdict t b = checkVerdict s b := by
  have hfield : t.field b 0 Config.checksumAt = s.field b 0 Config.checksumAt :=
    Memory.readBytes_congr _ _ _ _ fun i _ => h _
  simp only [checkVerdict, hfield, h _]

theorem decodedFields_of_sameMemory (h : sameMemory s t) : decodedFields t = decodedFields s := by
  have hvalue (off w : Nat) : leValue t .rx off w = leValue s .rx off w :=
    congrArg (fun bs => BitVec.ofNat 32 (leNat bs)) (Memory.readBytes_congr _ _ _ _ fun i _ => h _)
  simp only [decodedFields, hvalue, State.rxByte, h _]

/-- The verdict on RXBUF is negative exactly when its checksum does not match its last byte (R116). -/
theorem checkVerdict_rx_eq_false_iff (s : State) : (checkVerdict s .rx).ok = false ↔ s.responseCorrupt := by
  obtain ⟨hsum, hrcv, hok⟩ := isVerdict_checkVerdict s .rx
  have hlast : s.rxByte 25 = (checkVerdict s .rx).rcv := hrcv.symm
  rw [hok, decide_eq_false_iff_not, State.responseCorrupt, hlast, ← show _ = sumOf s 0xA0 from hsum, ← BitVec.toNat_inj]
  exact ne_comm

/-- A response is judged by its bytes alone (R116, R131). -/
theorem judgement_of_sameMemory (h : sameMemory s t) :
    isVerdict (checkVerdict t .rx) s 0xA0 ∧ isDecoded (decodedFields t) s ∧
      ((checkVerdict t .rx).ok = false ↔ s.responseCorrupt) := by
  rw [checkVerdict_of_sameMemory h, decodedFields_of_sameMemory h]
  exact ⟨isVerdict_checkVerdict s .rx, isDecoded_decodedFields s, checkVerdict_rx_eq_false_iff s⟩

theorem exchangeOk_of_ramp (h : s.opr = 10) : exchangeOk s = rampAnswered { s with rxw := false } := by
  simp only [exchangeOk, h]
  rfl

theorem decodeFrame_of_corrupt (hlen : s.rxlen.toNat = 26) (hsync : s.rxByte 0 = 0xAA)
    (hchk : s.regs.chkEn = true ∧ (checkVerdict s .rx).ok = false) : decodeFrame s = (judgedState s, some .chk) := by
  rw [decodeFrame_eq, if_neg (not_not_intro hlen), if_neg (not_not_intro hsync), if_pos hchk]

theorem rampAnswered_of_failure {d : Detail} (h : decodeFrame s = (t, some d)) :
    rampAnswered s = raiseError .communicationError d 0x23 t := by
  rw [rampAnswered, h]
  rfl

theorem rampAnswered_of_nack (h : decodeFrame s = (t, none)) (hnack : t.dec.ackOk = false) :
    rampAnswered s = raiseError .protocolNack .nack 0x23 t := by
  rw [rampAnswered, h]
  exact if_pos hnack

theorem rampAnswered_of_ack (h : decodeFrame s = (t, none)) (hack : t.dec.ackOk = true) :
    rampAnswered s =
      if t.ramp.delay = 0 then rampContinue (recordedStep t)
      else { recordedStep t with scnt := t.ramp.delay, st := .settle } := by
  rw [rampAnswered, h]
  exact if_neg (by simp [hack])

/-- The edge at which a ramp takes a response: its header is written back where it stands, and the window closes (R158). -/
theorem takeResponse_of_ramp {dev sub : Byte} (h : s.responseReady dev sub) (hop : s.opr = 10) :
    ∃ mem, sameMemory s { s with mem := mem, rxw := false } ∧
      takeResponse dev sub s = rampAnswered { s with mem := mem, rxw := false } := by
  obtain ⟨hst, -, hsync, hdev, hsub⟩ := h
  refine ⟨_, (putHeader_standing hsync hdev hsub).memory, ?_⟩
  rw [takeResponse, if_pos hst, exchangeOk_of_ramp (by exact hop)]
  rfl

/-- What follows a recorded step: the settle wait, the end, or the next step (R171 part 6). -/
theorem recorded_goes_on (hclosed : s.rxw = false)
    (ht : t = if s.ramp.delay = 0 then rampContinue s else { s with scnt := s.ramp.delay, st := .settle }) :
    (t.chk = s.chk ∧ t.dec = s.dec) ∧
      if s.ramp.delay ≠ 0 then t = { s with scnt := s.ramp.delay, st := .settle }
      else if s.ramp.final = true then t = { s with status := { s.status with done := true }, st := .idle, scnt := 0 }
      else isRampStep s t := by
  by_cases hdelay : s.ramp.delay = 0
  · rw [if_pos hdelay, rampContinue] at ht
    rw [if_neg (not_not_intro hdelay)]
    by_cases hfinal : s.ramp.final = true
    · rw [if_pos hfinal] at ht ⊢
      rw [ht, completeOk, ← hclosed]
      exact ⟨⟨rfl, rfl⟩, rfl⟩
    · rw [if_neg hfinal] at ht ⊢
      have hstep : isRampStep s t := ht ▸ isRampStep_rampStep s
      exact ⟨hstep.keeps_decode, hstep⟩
  · rw [if_neg hdelay] at ht
    rw [if_pos hdelay, ht]
    exact ⟨⟨rfl, rfl⟩, rfl⟩

/-- Settles O35: the response is decoded and judged, then the step is recorded and the ramp settles, ends or goes on. -/
theorem responseRecordsTheRampStep : Obligations.ResponseRecordsTheRampStep := by
  intro dev sub s hready hop
  obtain ⟨mem, hmem, htake⟩ := takeResponse_of_ramp hready hop
  obtain ⟨-, hlen, hsync, -, -⟩ := hready
  obtain ⟨hverdict, hdecoded, hwrong⟩ := judgement_of_sameMemory hmem
  generalize hp : { s with mem := mem, rxw := false } = p at hmem htake hverdict hdecoded hwrong
  have hfull : p.rxlen.toNat = 26 := by
    rw [← hp, hlen]
    rfl
  have hsynced : p.rxByte 0 = 0xAA := (hmem _).trans hsync
  have hcorrupt : (p.regs.chkEn = true ∧ (checkVerdict p .rx).ok = false) ↔
      (s.regs.chkEn = true ∧ s.responseCorrupt) := by
    rw [hwrong, ← hp]
  have hackOk : (goodState p).dec.ackOk = decide (s.rxByte 3 = 0x80) := by
    obtain ⟨-, -, -, -, h, -⟩ := hdecoded
    exact h
  refine ⟨rampAnswered p, by rw [exec_frameResponse, htake], ?_⟩
  by_cases hbad : s.regs.chkEn = true ∧ s.responseCorrupt
  · rw [rampAnswered_of_failure (decodeFrame_of_corrupt hfull hsynced (hcorrupt.mpr hbad)), if_pos hbad, ← hop]
    subst hp
    exact ⟨hverdict, hmem, rfl⟩
  have hdec := decodeFrame_of_good hfull hsynced (mt hcorrupt.mp hbad)
  rw [if_neg hbad]
  by_cases hack : s.rxByte 3 = 0x80
  · rw [decide_eq_true hack] at hackOk
    rw [if_neg (not_not_intro hack)]
    have hclosed : (recordedStep (goodState p)).rxw = false := by rw [← hp]; rfl
    obtain ⟨⟨hchk, hfields⟩, hgoes⟩ := recorded_goes_on hclosed (rampAnswered_of_ack hdec hackOk)
    rw [hchk, hfields]
    subst hp
    exact ⟨hverdict, hdecoded, recordedStep (goodState { s with mem := mem, rxw := false }), hmem, rfl, hgoes⟩
  · rw [decide_eq_false hack] at hackOk
    rw [rampAnswered_of_nack hdec hackOk, if_pos hack, ← hop]
    subst hp
    exact ⟨hverdict, hdecoded, hmem, rfl⟩

end

end Sys2Proof.Machine
end

section
/-! How a running ramp ends (R172, R173): what a cycle of it can lead to, one lemma per operation, from where the invariant says
the ramp stands. -/

namespace Sys2Proof.Machine

/-! ### Where a ramp can end -/

/-- The ramp stands at its target, after all its steps (R172). -/
structure RampArrived (regs : HostRegs) (pos cnt : Word) : Prop where
  pos : pos = regs.rampTo
  count : cnt.toNat = rampCommands regs

/-- The ramp stands at an acknowledged step before its last (R173). -/
structure RampCutShort (regs : HostRegs) (pos cnt : Word) : Prop where
  pos : (pos.toNat : Int) = rampAt regs (cnt.toNat * regs.rampStep.toNat)
  count : cnt.toNat < rampCommands regs

/-- What a cycle of a running ramp leads to. -/
inductive RampOutcome (regs : HostRegs) (t : State) : Prop where
  | goesOn (busy : t.st ≠ .idle)
  | arrived (ok : t.status.err = .ok) (stands : RampArrived regs t.rampPos t.rampCnt)
  | cutShort (error : t.status.err ≠ .ok) (stands : RampCutShort regs t.rampPos t.rampCnt)

theorem RampOutcome.of_next {regs : HostRegs} {t u : State} (h : (.next u : Host.Outcome State Fault Refusal) = .next t)
    (hu : RampOutcome regs u) : RampOutcome regs t := Host.Outcome.next.inj h ▸ hu

/-! ### The number of steps (R172) -/

theorem rampAt_rampDistance (regs : HostRegs) : rampAt regs (rampDistance regs) = regs.rampTo.toNat := by
  unfold rampAt rampDistance
  split <;> omega

section
variable {regs : HostRegs} {r : RampRegs} {pos cnt : Word}

theorem RampLatched.step_pos (h : RampLatched regs r pos) : 0 < regs.rampStep.toNat :=
  Nat.pos_of_ne_zero fun hzero => h.stepSize (BitVec.eq_of_toNat_eq hzero)

/-- The quotient of R172's N, rounded up, by the multiples of the step on both sides of the distance. -/
theorem lt_rampCommands_iff (hstep : 0 < regs.rampStep.toNat) (k : Nat) :
    k < rampCommands regs ↔ k * regs.rampStep.toNat < rampDistance regs := by
  rw [rampCommands, ← Nat.succ_le_iff, Nat.le_div_iff_mul_le hstep, Nat.succ_mul]
  omega

/-- A step is due, so the acknowledged ones are too few. -/
theorem RampDue.cutShort (h : RampDue regs r cnt) (hlat : RampLatched regs r pos) : RampCutShort regs pos cnt :=
  ⟨hlat.recorded ▸ h.pos, (lt_rampCommands_iff hlat.step_pos _).mpr h.short⟩

/-- The step just acknowledged was the final one: it was needed, and no other is. -/
theorem RampSettled.arrived (h : RampSettled regs r cnt) (hlat : RampLatched regs r pos) (hfinal : r.final = true) :
    RampArrived regs pos cnt := by
  have hreached : rampDistance regs ≤ cnt.toNat * regs.rampStep.toNat := by
    rw [h.final] at hfinal
    exact of_decide_eq_true hfinal
  have hpos := h.pos
  rw [Nat.min_eq_right hreached, rampAt_rampDistance] at hpos
  have hneeded : cnt.toNat - 1 < rampCommands regs := (lt_rampCommands_iff hlat.step_pos _).mpr h.short
  have henough : ¬ cnt.toNat < rampCommands regs := mt (lt_rampCommands_iff hlat.step_pos _).mp hreached.not_gt
  have hcounted := h.counted
  exact ⟨hlat.recorded.trans (BitVec.eq_of_toNat_eq (by omega)), by omega⟩

/-- The step just acknowledged was not the final one, so another is due. -/
theorem RampSettled.due (h : RampSettled regs r cnt) (hmore : ¬ r.final = true) : RampDue regs r cnt := by
  have hshort : cnt.toNat * regs.rampStep.toNat < rampDistance regs := by simpa [h.final] using hmore
  have hpos := h.pos
  rw [Nat.min_eq_left hshort.le] at hpos
  exact ⟨hshort, hpos⟩

end

/-! ### The operations of a ramp (R171, R174) -/

section
variable {s t : State}

theorem rampStep_outcome (hlat : RampLatched s.regs s.ramp s.rampPos) (hdue : RampDue s.regs s.ramp s.rampCnt) :
    RampOutcome s.regs (rampStep s) := by
  obtain ⟨-, e⟩ | ⟨-, e⟩ := rampStep_cases s
  · exact .goesOn (by simp [e])
  · exact e ▸ .cutShort (by simp) (hdue.cutShort hlat)

theorem rampContinue_outcome (h : s.unreported) (hlat : RampLatched s.regs s.ramp s.rampPos)
    (hsettled : RampSettled s.regs s.ramp s.rampCnt) : RampOutcome s.regs (rampContinue s) := by
  unfold rampContinue
  split
  case isTrue hfinal => exact .arrived h.err (hsettled.arrived hlat hfinal)
  case isFalse hmore => exact rampStep_outcome hlat (hsettled.due hmore)

theorem rampAnswered_outcome (h : s.ExchangeReady) (hop : s.opr = 10) : RampOutcome s.regs (rampAnswered s) := by
  obtain ⟨hlat, hfl⟩ := h.ramp hop
  obtain ⟨t, d, hd, e⟩ | ⟨t, hd, -, e⟩ | ⟨t, hd, -, -, e⟩ | ⟨t, hd, -, -, e⟩ := rampAnswered_cases s
  all_goals
    obtain ⟨ht, ⟨status, chk, dec, rfl⟩, -⟩ := unreported_of_decodeFrame h.unreported hd
    rw [e]
  · exact .cutShort (by simp) (hfl.toRampDue.cutShort hlat)
  · exact .cutShort (by simp) (hfl.toRampDue.cutShort hlat)
  · exact rampContinue_outcome (s := recordedStep { s with status := status, chk := chk, dec := dec }) ht
      { hlat with recorded := rfl } (hfl.recorded hlat)
  · exact .goesOn (by simp)

theorem exchangeOk_outcome (h : s.ExchangeReady) (hop : s.opr = 10) : RampOutcome s.regs (exchangeOk s) := by
  rw [exchangeOk_of_ramp hop]
  exact rampAnswered_outcome (s := { s with rxw := false }) { h with } hop

theorem exchangeFail_outcome (h : s.ExchangeReady) (hop : s.opr = 10) (d : Detail) :
    RampOutcome s.regs (exchangeFail d s) := by
  obtain ⟨hlat, hfl⟩ := h.ramp hop
  exact .cutShort (by simp [exchangeFail]) (hfl.toRampDue.cutShort hlat)

/-! ### The cycles of a ramp (R155, R174) -/

theorem txCycle_outcome (h : s.ExchangeReady) (hop : s.opr = 10) (hst : s.st = .tx) : RampOutcome s.regs (txCycle s) := by
  have htaken : (byteTaken s).ExchangeReady := { h with }
  have hbusy : s.st ≠ .idle := by simp [hst]
  obtain ⟨-, e⟩ | ⟨-, -, e⟩ | ⟨-, -, -, e⟩ | ⟨-, -, -, -, e⟩ | ⟨-, -, -, -, e⟩ := txCycle_cases s
  all_goals rw [e]
  · split
    · exact exchangeFail_outcome htaken hop .link
    · exact exchangeFail_outcome h hop .link
  · exact .goesOn hbusy
  · exact .goesOn hbusy
  · exact .goesOn (by simp)
  · exact exchangeOk_outcome htaken hop

theorem receiveCycle_outcome (h : s.ExchangeReady) (hop : s.opr = 10) (hst : s.st = .rx) (ht : receiveCycle s = .next t) :
    RampOutcome s.regs t := by
  unfold receiveCycle at ht
  split at ht
  · exact .of_next ht (exchangeFail_outcome h hop .link)
  · split at ht
    · rw [answerCycle_of_wf hst h.unreported.memory] at ht
      exact .of_next ht (exchangeOk_outcome h hop)
    · refine .of_next ht ?_
      obtain ⟨-, -, e⟩ | ⟨-, e⟩ := waitCycle_cases s
      · exact e ▸ exchangeFail_outcome h hop .timeout
      · exact .goesOn (by simp [e, hst])

theorem settleCycle_outcome (h : s.Inv) (hramp : s.ramping) (hst : s.st = .settle) :
    RampOutcome s.regs (settleCycle s) := by
  unfold settleCycle
  split
  · exact .goesOn hramp.1
  · exact rampContinue_outcome (s := { s with scnt := 0 }) (h.unreported hramp.1) (h.rampLatched hramp)
      (h.rampSettled hramp hst)

/-- A cycle of a running ramp, in the state that this cycle's inputs leave (R153, R155). -/
theorem engineCycle_outcome (h : s.Inv ∨ s.Completing) (hramp : s.ramping) (ht : engineCycle s = .next t) :
    RampOutcome s.regs t := by
  obtain ⟨hbusy, hop⟩ := hramp
  have hinv (hst : s.st ≠ .rx) : s.Inv := h.resolve_right fun hc => hst hc.st
  unfold engineCycle at ht
  split at ht
  case h_1 hst => exact absurd hst hbusy
  case h_2 hst =>
    have hs := hinv (by simp [hst])
    rw [sendCycle_of_wf hst hs.memory] at ht
    exact .of_next ht (txCycle_outcome (hs.exchangeReady (.inl hst)) hop hst)
  case h_3 hst =>
    have hready := h.elim (fun hs => hs.exchangeReady (.inr hst)) State.Completing.ready
    exact receiveCycle_outcome hready hop hst ht
  case h_4 hst => exact .of_next ht (settleCycle_outcome (hinv (by simp [hst])) ⟨hbusy, hop⟩ hst)

/-- Settles O43: the cycle that ends the ramp has arrived or was cut short, and a completion sets DONE (R53). -/
theorem rampEndsExactlyAtItsTarget : Obligations.RampEndsExactlyAtItsTarget := by
  intro s t hinv hramp hrst hstep hidle
  obtain ⟨-, hdone, -⟩ := doneRisesOnlyAtACompletion s t hrst hstep
  refine ⟨hdone hramp.1 hidle, ?_⟩
  rw [step_of_busy hrst hramp.1] at hstep
  obtain ⟨v, hv, rfl⟩ := thenTick_eq_next hstep
  have hmet : s.met.ramping := ⟨by simpa using hramp.1, by simpa using hramp.2⟩
  have houtcome : RampOutcome s.met.regs v :=
    engineCycle_outcome (busyWrite_inv (served_inv hinv) s.pins) hmet hv
  rw [met_regs] at houtcome
  obtain hbusy | ⟨hok, hstands⟩ | ⟨herror, hstands⟩ := houtcome
  · exact absurd hidle hbusy
  · exact ⟨fun _ => ⟨hstands.pos, hstands.count⟩, fun herror => absurd hok herror⟩
  · exact ⟨fun hok => absurd hok herror, fun _ => ⟨hstands.count, hstands.pos⟩⟩

end

end Sys2Proof.Machine
end

section
/-! The single-shot commands (R190 to R195): a payload set, framed and sent, what REMOTE, OUTPUT, SET_MAXV, SET_IMAX and STATUS
answer at acceptance, and the response each of them takes. -/

namespace Sys2Proof.Machine

section
variable {s t : State}

/-! ### A payload set, framed and sent (R112, R158, R190) -/

theorem holdsPayload_setPayload {pay : List Byte} (hle : pay.length ≤ 22) (s : State) :
    (setPayload pay s).holdsPayload pay := by
  refine holdsPayload_of_payBytes hle ?_ (payBytes_setPayload_all pay s hle)
  rw [setPayload_paylen, BitVec.toNat_ofNat]
  omega

/-- The frame that is built from PAYBUF carries the payload just set (R190). -/
theorem buildFromPayload_setPayload {pay : List Byte} (hle : pay.length ≤ 22) (sub : Byte) (s : State) :
    buildFromPayload sub (setPayload pay s) = buildFrame s.regs.devAddr sub pay (setPayload pay s) := by
  obtain ⟨hlen, -⟩ := holdsPayload_setPayload hle s
  rw [buildFromPayload, hlen, payBytes_setPayload pay s hle, setPayload_regs]

/-- Building a frame leaves the payload in PAYBUF and PAYLEN. -/
theorem State.holdsPayload.buildFrame {pay bytes : List Byte} (h : s.holdsPayload pay) (hle : bytes.length ≤ 22)
    (dev sub : Byte) : (buildFrame dev sub bytes s).holdsPayload pay := by
  obtain ⟨hlen, hbytes, hzeros⟩ := h
  have hkept : ∀ i, (Machine.buildFrame dev sub bytes s).payByte i = s.payByte i := fun i =>
    read_buildFrame_outside dev sub bytes s hle _ (by unfold Config.payBase; omega)
  exact ⟨hlen, fun i hi => (hkept i).trans (hbytes i hi), fun i hi hi22 => (hkept i).trans (hzeros i hi hi22)⟩

theorem holdsPayload_singleShot {pay : List Byte} (hle : pay.length ≤ 22) (a : SubAddr) (s : State) :
    (singleShot a (setPayload pay s)).holdsPayload pay := by
  rw [singleShot, buildFromPayload_setPayload hle]
  exact ((holdsPayload_setPayload hle s).buildFrame hle _ _).startExchange

theorem holdsFrame_singleShot {pay : List Byte} (hle : pay.length ≤ 22) (a : SubAddr) (s : State) :
    (singleShot a (setPayload pay s)).holdsFrame s.regs.devAddr a.code pay := by
  rw [singleShot, buildFromPayload_setPayload hle]
  refine holdsFrame_of_txFrame hle ?_
  rw [txFrame_startExchange, txFrame_buildFrame _ _ _ _ hle]

theorem responseCleared_singleShot (a : SubAddr) (s : State) : (singleShot a s).responseCleared :=
  responseCleared_startExchange _

/-- A payload set and sent reaches the buffers, PAYLEN and the counters of the exchange, and nothing else (R158, R190). -/
theorem singleShot_setPayload_frame (a : SubAddr) (pay : List Byte) (s : State) :
    singleShot a (setPayload pay s) =
      { s with
        mem := (singleShot a (setPayload pay s)).mem, paylen := BitVec.ofNat 5 pay.length
        rxlen := 0, rxw := true, txIdx := 0, tmr := 0, st := .tx } := by
  dsimp only [singleShot, startExchange, buildFromPayload, buildFrame, setPayload]

/-! ### REMOTE and OUTPUT at acceptance (R191, R192) -/

theorem toNat_le_one_iff (arg : Word) : arg.toNat ≤ 1 ↔ arg = 0 ∨ arg = 1 := by
  rw [← BitVec.toNat_inj, ← BitVec.toNat_inj]
  exact Nat.le_one_iff_eq_zero_or_eq_one

/-- An ARG that is a flag is sent as its low byte. -/
theorem flagCommand_of_flag (h : s.regs.arg.toNat ≤ 1) (a : SubAddr) :
    flagCommand a s = singleShot a (setPayload [BitVec.ofNat 8 s.regs.arg.toNat] s) := by
  have hpay : flagPayload s.regs.arg = some [BitVec.ofNat 8 s.regs.arg.toNat] :=
    (flagPayload_eq_some _ _).mpr ⟨(toNat_le_one_iff _).mp h, rfl⟩
  rw [flagCommand, hpay]

theorem flagCommand_of_no_flag (h : ¬ s.regs.arg.toNat ≤ 1) (a : SubAddr) :
    flagCommand a s = raiseError .argumentError .badFlag a.code s := by
  have hnone : flagPayload s.regs.arg = none := if_neg (mt (toNat_le_one_iff _).mpr h)
  rw [flagCommand, hnone]

theorem exec_flagCommand {i : Instr} {op : BitVec 4} {code : Byte}
    (h : (i = .remote ∧ op = 5 ∧ code = 0x20) ∨ (i = .output ∧ op = 6 ∧ code = 0x21)) (s : State) :
    ∃ a : SubAddr, a.code = code ∧ exec i s = .next (flagCommand a (beginCommand op s)) := by
  obtain ⟨rfl, rfl, rfl⟩ | ⟨rfl, rfl, rfl⟩ := h
  · exact ⟨.remoteControl, rfl, rfl⟩
  · exact ⟨.outputEnable, rfl, rfl⟩

/-- Settles O37: ARG as a number decides between the one-byte payload, sent, and the refusal. -/
theorem flagCommandsSendTheFlag : Obligations.FlagCommandsSendTheFlag := by
  intro i op code s hi
  obtain ⟨a, rfl, hexec⟩ := exec_flagCommand hi s
  refine ⟨_, hexec, ?_⟩
  split_ifs with hflag
  · have hone : [BitVec.ofNat 8 s.regs.arg.toNat].length ≤ 22 := by simp
    rw [flagCommand_of_flag (by exact hflag)]
    exact ⟨holdsPayload_singleShot hone a (beginCommand op s), holdsFrame_singleShot hone a (beginCommand op s),
      responseCleared_singleShot _ _, singleShot_setPayload_frame a _ (beginCommand op s)⟩
  · rw [flagCommand_of_no_flag (by exact hflag)]
    rfl

/-! ### SET_MAXV, SET_IMAX and STATUS at acceptance (R193 to R195) -/

theorem exec_numericCommand {i : Instr} {op : BitVec 4} {code : Byte}
    (h : (i = .setMaxv ∧ op = 7 ∧ code = 0x22) ∨ (i = .setImax ∧ op = 8 ∧ code = 0x24)) (s : State) :
    ∃ a : SubAddr, a.code = code ∧ exec i s = .next (numericCommand a (beginCommand op s)) := by
  obtain ⟨rfl, rfl, rfl⟩ | ⟨rfl, rfl, rfl⟩ := h
  · exact ⟨.maxVoltage, rfl, rfl⟩
  · exact ⟨.currentLimit, rfl, rfl⟩

/-- Settles O38: ARG's own bytes are the payload, sent. -/
theorem numericCommandsSendTheNumber : Obligations.NumericCommandsSendTheNumber := by
  intro i op code s hi
  obtain ⟨a, rfl, hexec⟩ := exec_numericCommand hi s
  have hle := length_numericPayload_le s.regs.arg
  refine ⟨_, hexec, ⟨numericPayload s.regs.arg, isNumberPayload_numericPayload _, ?_, ?_⟩,
    responseCleared_singleShot _ _, ?_⟩
  · exact holdsPayload_singleShot hle a (beginCommand op s)
  · exact holdsFrame_singleShot hle a (beginCommand op s)
  · exact singleShot_setPayload_frame a _ (beginCommand op s)

/-- Settles O39: the empty payload, sent. -/
theorem statusSendsTheQuery : Obligations.StatusSendsTheQuery := by
  intro s
  exact ⟨singleShot .statusQuery (setPayload [] (beginCommand 9 s)), rfl,
    holdsPayload_singleShot (Nat.zero_le _) .statusQuery _,
    holdsFrame_singleShot (Nat.zero_le _) .statusQuery (beginCommand 9 s), responseCleared_singleShot _ _,
    singleShot_setPayload_frame .statusQuery [] (beginCommand 9 s)⟩

/-! ### The response (R131, R136, R190) -/

/-- Only STATUS reads: its response is never refused for the acknowledgement (R195). -/
theorem isWrite_iff (a : SubAddr) : a.isWrite = true ↔ a ≠ .statusQuery := by
  cases a <;> decide

theorem exchangeOk_of_singleShot {a : SubAddr} (h : singleShotSub s.opr = some a) :
    exchangeOk s = singleShotAnswered a { s with rxw := false } := by
  simp only [exchangeOk, h]

theorem singleShotAnswered_of_failure {d : Detail} (h : decodeFrame s = (t, some d)) (a : SubAddr) :
    singleShotAnswered a s = raiseError .frameError d a.code t := by
  rw [singleShotAnswered, h]

theorem singleShotAnswered_of_good (h : decodeFrame s = (t, none)) (a : SubAddr) :
    singleShotAnswered a s =
      if a.isWrite = true ∧ t.dec.ackOk = false then raiseError .protocolNack .nack a.code t else completeOk t := by
  rw [singleShotAnswered, h]

/-- The edge at which a single-shot command takes a response: its header is written back where it stands, and the window closes
(R158). -/
theorem takeResponse_of_singleShot {dev sub : Byte} {a : SubAddr} (h : s.responseReady dev sub)
    (ha : singleShotSub s.opr = some a) :
    ∃ mem, sameMemory s { s with mem := mem, rxw := false } ∧
      takeResponse dev sub s = singleShotAnswered a { s with mem := mem, rxw := false } := by
  obtain ⟨hst, -, hsync, hdev, hsub⟩ := h
  refine ⟨_, (putHeader_standing hsync hdev hsub).memory, ?_⟩
  rw [takeResponse, if_pos hst, exchangeOk_of_singleShot (by exact ha)]
  rfl

/-- A complete response that starts with the sync byte fails to decode exactly when its checksum is wrong and checked (R131). -/
theorem decodeFrame_of_ready {dev sub : Byte} (h : s.responseReady dev sub) (hmem : sameMemory s t)
    (hlen : t.rxlen = s.rxlen) (hen : t.regs.chkEn = s.regs.chkEn) :
    decodeFrame t =
      if s.regs.chkEn = true ∧ s.responseCorrupt then (judgedState t, some .chk) else (goodState t, none) := by
  obtain ⟨-, hfull, hsync, -, -⟩ := h
  obtain ⟨-, -, hwrong⟩ := judgement_of_sameMemory hmem
  have hfull' : t.rxlen.toNat = 26 := congrArg BitVec.toNat (hlen.trans hfull)
  have hsync' : t.rxByte 0 = 0xAA := (hmem _).trans hsync
  have hcorrupt : (t.regs.chkEn = true ∧ (checkVerdict t .rx).ok = false) ↔ (s.regs.chkEn = true ∧ s.responseCorrupt) := by
    rw [hwrong, hen]
  split_ifs with hbad
  · exact decodeFrame_of_corrupt hfull' hsync' (hcorrupt.mpr hbad)
  · exact decodeFrame_of_good hfull' hsync' (mt hcorrupt.mp hbad)

/-- An acknowledgement is judged by byte 3 of the response (R136). -/
theorem decodedFields_ackOk_eq_false_iff (h : sameMemory s t) : (decodedFields t).ackOk = false ↔ s.rxByte 3 ≠ 0x80 := by
  obtain ⟨-, ⟨-, -, -, -, hack, -⟩, -⟩ := judgement_of_sameMemory h
  rw [hack, decide_eq_false_iff_not]

/-- Settles O34: the response is decoded, then the acknowledgement of a write is judged. -/
theorem responseCompletesSingleShot : Obligations.ResponseCompletesSingleShot := by
  intro a dev sub s hready hnotRamp hop
  have ha : singleShotSub s.opr = some a := by
    rw [hop]
    cases a
    case voltageSetpoint => exact absurd rfl hnotRamp
    all_goals rfl
  refine ⟨?_, fun u hu => by rw [exec_frameResponse, takeResponse, if_neg hu]⟩
  obtain ⟨mem, hmem, htake⟩ := takeResponse_of_singleShot hready ha
  obtain ⟨hverdict, hdecoded, -⟩ := judgement_of_sameMemory hmem
  have hdec := decodeFrame_of_ready hready hmem rfl rfl
  have hnackIff : a.isWrite = true ∧ (goodState { s with mem := mem, rxw := false }).dec.ackOk = false ↔
      a ≠ .statusQuery ∧ s.rxByte 3 ≠ 0x80 :=
    and_congr (isWrite_iff a) (decodedFields_ackOk_eq_false_iff hmem)
  refine ⟨_, by rw [exec_frameResponse, htake], ?_⟩
  by_cases hbad : s.regs.chkEn = true ∧ s.responseCorrupt
  · rw [if_pos hbad] at hdec ⊢
    rw [singleShotAnswered_of_failure hdec]
    exact ⟨hmem, hverdict, rfl⟩
  rw [if_neg hbad] at hdec ⊢
  rw [singleShotAnswered_of_good hdec]
  by_cases hnack : a ≠ .statusQuery ∧ s.rxByte 3 ≠ 0x80
  · rw [if_pos (hnackIff.mpr hnack), if_pos hnack]
    exact ⟨hmem, hverdict, hdecoded, rfl⟩
  · rw [if_neg (mt hnackIff.mp hnack), if_neg hnack]
    exact ⟨hmem, hverdict, hdecoded, rfl⟩

end

end Sys2Proof.Machine
end

section
/-! Nothing stops the block (R216, R220): every operation leaves the coming inputs and the cycle's index alone (log 1), every meaning
and every cycle answers a next state, and the tick then moves both on by one. -/

namespace Sys2Proof.Machine

/-! ### Where a state stands in time -/

/-- What the tick alone moves (log 1): the fixed inputs of the coming cycles and the index of the coming cycle. -/
def State.timing (s : State) : List Pins × Nat := (s.script, s.cycle)

theorem timing_eq_iff (s t : State) : t.timing = s.timing ↔ t.script = s.script ∧ t.cycle = s.cycle := by
  simp [State.timing]

/-- From `s` a next state is answered, still in the same cycle: no fault and no refusal. -/
def AnswersFrom (s : State) (o : Host.Outcome State Fault Refusal) : Prop := ∃ t, o = .next t ∧ t.timing = s.timing

theorem AnswersFrom.of_timing {s t : State} (h : t.timing = s.timing) : AnswersFrom s (.next t) := ⟨t, rfl, h⟩

theorem AnswersFrom.ite {s : State} {c : Prop} [Decidable c] {a b : Host.Outcome State Fault Refusal}
    (ha : AnswersFrom s a) (hb : AnswersFrom s b) : AnswersFrom s (if c then a else b) := by
  split
  · exact ha
  · exact hb

theorem AnswersFrom.trans {s x : State} {o : Host.Outcome State Fault Refusal} (hx : x.timing = s.timing)
    (h : AnswersFrom x o) : AnswersFrom s o := by
  obtain ⟨t, e, ht⟩ := h
  exact ⟨t, e, ht.trans hx⟩

/-! ### The shared operations -/

theorem timing_of_decodeFrame {s t : State} {d : Option Detail} (h : decodeFrame s = (t, d)) : t.timing = s.timing := by
  obtain ⟨-, e⟩ | ⟨-, -, e⟩ | ⟨-, -, -, -, e⟩ | ⟨-, -, -, e⟩ := decodeFrame_cases s
  all_goals
    obtain ⟨rfl, -⟩ := Prod.mk.inj (e.symm.trans h)
    rfl

theorem rampStep_timing (s : State) : (rampStep s).timing = s.timing := by
  obtain ⟨-, e⟩ | ⟨-, e⟩ := rampStep_cases s
  · exact e ▸ rfl
  · exact e ▸ rfl

theorem rampContinue_timing (s : State) : (rampContinue s).timing = s.timing := by
  unfold rampContinue
  split
  · rfl
  · exact rampStep_timing s

theorem settleCycle_timing (s : State) : (settleCycle s).timing = s.timing := by
  obtain ⟨-, e⟩ | ⟨-, -, e⟩ | ⟨-, -, e⟩ := settleCycle_cases s
  · exact e ▸ rfl
  · exact e ▸ rfl
  · exact e ▸ rampStep_timing _

theorem flagCommand_timing (a : SubAddr) (s : State) : (flagCommand a s).timing = s.timing := by
  unfold flagCommand
  split
  · rfl
  · rfl

/-! ### The end of an exchange (R158) -/

theorem singleShotAnswered_timing (a : SubAddr) (s : State) : (singleShotAnswered a s).timing = s.timing := by
  obtain ⟨t, d, hd, e⟩ | ⟨t, hd, -, -, e⟩ | ⟨t, hd, -, e⟩ := singleShotAnswered_cases a s
  all_goals
    have ht := timing_of_decodeFrame hd
    exact e ▸ ht

theorem rampAnswered_timing (s : State) : (rampAnswered s).timing = s.timing := by
  obtain ⟨t, d, hd, e⟩ | ⟨t, hd, -, e⟩ | ⟨t, hd, -, -, e⟩ | ⟨t, hd, -, -, e⟩ := rampAnswered_cases s
  all_goals have ht := timing_of_decodeFrame hd
  · exact e ▸ ht
  · exact e ▸ ht
  · exact e ▸ (rampContinue_timing (recordedStep t)).trans ht
  · exact e ▸ ht

theorem exchangeOk_timing (s : State) : (exchangeOk s).timing = s.timing := by
  obtain ⟨a, -, e⟩ | ⟨-, -, e⟩ | ⟨-, -, e⟩ := exchangeOk_cases s
  · exact e ▸ singleShotAnswered_timing a _
  · exact e ▸ rampAnswered_timing _
  · exact e ▸ rfl

/-! ### The cycles of a busy block (R155, R174) -/

theorem txCycle_timing (s : State) : (txCycle s).timing = s.timing := by
  obtain ⟨-, e⟩ | ⟨-, -, e⟩ | ⟨-, -, -, e⟩ | ⟨-, -, -, -, e⟩ | ⟨-, -, -, -, e⟩ := txCycle_cases s
  · rw [e]
    split
    · rfl
    · rfl
  · rw [e]
  · exact e ▸ rfl
  · exact e ▸ rfl
  · exact e ▸ exchangeOk_timing (byteTaken s)

theorem waitCycle_timing (s : State) : (waitCycle s).timing = s.timing := by
  obtain ⟨-, -, e⟩ | ⟨-, e⟩ := waitCycle_cases s
  · exact e ▸ rfl
  · exact e ▸ rfl

theorem sendCycle_answers {s : State} (hst : s.st = .tx) : AnswersFrom s (sendCycle s) := by
  obtain ⟨m, e⟩ := sendCycle_eq_txCycle hst
  exact e ▸ .of_timing (txCycle_timing { s with mem := m })

theorem answerCycle_answers {s : State} (hst : s.st = .rx) : AnswersFrom s (answerCycle s) := by
  obtain ⟨m, e⟩ := answerCycle_eq_exchangeOk hst
  exact e ▸ .of_timing (exchangeOk_timing { s with mem := m })

theorem receiveCycle_answers {s : State} (hst : s.st = .rx) : AnswersFrom s (receiveCycle s) :=
  .ite (.of_timing rfl) (.ite (answerCycle_answers hst) (.of_timing (waitCycle_timing s)))

theorem engineCycle_answers (s : State) : AnswersFrom s (engineCycle s) := by
  unfold engineCycle
  split
  case h_1 => exact .of_timing rfl
  case h_2 hst => exact sendCycle_answers hst
  case h_3 hst => exact receiveCycle_answers hst
  case h_4 => exact .of_timing (settleCycle_timing s)

/-! ### The acceptance of a command (R85) -/

/-- What a command cannot do it reports in ERR and ERR_INFO (R216): its meaning never stops the block. -/
theorem exec_command_answers {i : Instr} (hi : i.place = .command) (s : State) : AnswersFrom s (exec i s) := by
  cases i with
  | encRaw sub => exact .ite (.of_timing rfl) (.ite (.of_timing rfl) (.of_timing rfl))
  | encNum sub => exact .ite (.of_timing rfl) (.of_timing rfl)
  | decode =>
    simp only [exec, execDecode]
    split
    case h_1 hd =>
      have ht := timing_of_decodeFrame hd
      exact .of_timing ht
    case h_2 hd =>
      have ht := timing_of_decodeFrame hd
      exact .of_timing ht
  | xfer => exact .of_timing rfl
  | remote => exact .of_timing (flagCommand_timing _ _)
  | output => exact .of_timing (flagCommand_timing _ _)
  | setMaxv => exact .of_timing rfl
  | setImax => exact .of_timing rfl
  | status => exact .of_timing rfl
  | ramp => exact .ite (.of_timing rfl) (.ite (.of_timing rfl) (.of_timing (rampStep_timing _)))
  | validate buf => exact .of_timing rfl
  | unpack buf off wid => exact .ite (.of_timing rfl) (.of_timing rfl)
  | frameRemoteControl | frameOutputEnable | frameMaxVoltage | frameVoltageSetpoint | frameCurrentLimit | frameStatusQuery
  | frameResponse => cases hi

/-- An illegal word is accepted too, and reported (R87). -/
theorem acceptCommand_answers (w : Word) (s : State) : AnswersFrom s (acceptCommand w s) := by
  unfold acceptCommand
  split
  case h_1 i hi => exact .trans rfl (exec_command_answers (place_of_decode_command hi) { s with cmd := w })
  case h_2 => exact .of_timing rfl

/-! ### A whole step -/

theorem idleWrite_timing (p : Pins) (s : State) : (idleWrite p s).timing = s.timing := by
  obtain ⟨regs, paylen, rxlen, mem, e⟩ := idleWrite_frame p s
  exact e ▸ rfl

theorem busyWrite_timing (p : Pins) (s : State) : (busyWrite p s).timing = s.timing := by
  obtain ⟨b, e⟩ := busyWrite_frame p s
  exact e ▸ rfl

theorem served_timing (s : State) : s.served.timing = s.timing := by
  obtain ⟨status, mem, rxlen, e, -⟩ := served_frame s
  exact e ▸ rfl

theorem blockCycle_answers (p : Pins) (s : State) : AnswersFrom s (blockCycle p s) := by
  by_cases hst : s.st = .idle
  · rw [blockCycle_of_idle p hst]
    exact .ite (acceptCommand_answers p.busWdata s) (.of_timing (idleWrite_timing p s))
  · rw [blockCycle_of_busy p hst]
    exact .trans (busyWrite_timing p s) (engineCycle_answers _)

theorem cycleEdge_answers (s : State) : AnswersFrom s (cycleEdge s) :=
  .ite (.of_timing rfl) (.trans (served_timing s) (blockCycle_answers s.pins s.served))

/-- Settles O52: the edge answers a next state in the same cycle, and the tick takes it to the next one. -/
theorem everyStepAnswersANextState : Obligations.EveryStepAnswersANextState := by
  intro s
  obtain ⟨t, e, ht⟩ := cycleEdge_answers s
  obtain ⟨hscript, hcycle⟩ := (timing_eq_iff s t).mp ht
  refine ⟨t.tick, by rw [step, e, thenTick], ?_, ?_⟩
  · rw [State.tick_cycle, hcycle]
  · rw [State.tick_script, hscript]

end Sys2Proof.Machine
end

section
/-! The reset (R240, R241): what the host reads after a reset edge, what the link sees at it and after it, and the invariant of the
state it leaves. -/

namespace Sys2Proof.Machine

/-! ### Where the two registers that do not read 0 stand (R23) -/

theorem regAt_eq_id_iff (a : BitVec 8) : regAt a = some .id ↔ a.toNat / 4 = 0 := by
  revert a
  decide

theorem regAt_eq_rampStep_iff (a : BitVec 8) : regAt a = some .rampStep ↔ a.toNat / 4 = 11 := by
  revert a
  decide

/-! ### Reads after the edge (R240) -/

@[simp] theorem Memory.read_nil (a : Nat) : Memory.read [] a = 0 := ite_self _

theorem bufWord_resetEdge (s : State) (base k : Nat) : bufWord (resetEdge s) base k = 0 := by
  simp [bufWord, wordOfBytes, State.reset]

/-- The words that the host reads put together from several fields (R27, R28, R40, R42, R43). -/
theorem packedWords_reset :
    State.reset.statusWord = 0 ∧ State.reset.cfgWord = 0 ∧ State.reset.errInfoWord = 0 ∧ State.reset.decHdrWord = 0 ∧
      State.reset.decFlagsWord = 0 := by decide

theorem readReg_resetEdge (s : State) {r : Reg} (hid : r ≠ .id) (hstep : r ≠ .rampStep) : readReg (resetEdge s) r = 0 := by
  obtain ⟨hstatus, hcfg, herr, hhdr, hflags⟩ := packedWords_reset
  cases r with
  | id => exact absurd rfl hid
  | rampStep => exact absurd rfl hstep
  | status => exact hstatus
  | cfg => exact hcfg
  | errInfo => exact herr
  | decHdr => exact hhdr
  | decFlags => exact hflags
  | txbuf k | rxbuf k | paybuf k => exact bufWord_resetEdge s _ k
  | _ => rfl

theorem busRead_resetEdge (s : State) (a : BitVec 8) :
    busRead (resetEdge s) a = if a.toNat / 4 = 0 then 0x50530001 else if a.toNat / 4 = 11 then 500 else 0 := by
  split
  case isTrue hid => exact busRead_of_regAt ((regAt_eq_id_iff a).mpr hid)
  case isFalse hid =>
    split
    case isTrue hstep => exact busRead_of_regAt ((regAt_eq_rampStep_iff a).mpr hstep)
    case isFalse hstep =>
      cases hr : regAt a with
      | none => exact busRead_of_reserved hr
      | some r =>
        have hneId : r ≠ .id := fun h => hid ((regAt_eq_id_iff a).mp (h ▸ hr))
        have hneStep : r ≠ .rampStep := fun h => hstep ((regAt_eq_rampStep_iff a).mp (h ▸ hr))
        exact (busRead_of_regAt hr).trans (readReg_resetEdge s hneId hneStep)

/-! ### The edge -/

/-- Settles O56: the reset edge alone makes the step, so the host reads the reset values; the link is silent at the edge because
`tx_valid` is 0 in a cycle of reset (log 13), and after it because the block is idle. -/
theorem resetEdgeGivesTheResetState : Obligations.ResetEdgeGivesTheResetState := by
  intro s hrst
  obtain ⟨hvalid, hsent⟩ := link_outputs_of_rst s hrst
  refine ⟨(resetEdge s).tick, step_of_rst hrst, rfl, fun a => ?_, ⟨hvalid, rfl, hsent⟩, rfl, rfl, rfl⟩
  rw [busRead_tick, busRead_resetEdge]

/-- Settles O57: a reset edge keeps no register, so the state after reset is what it makes of that state itself. -/
theorem resetMeetsTheInvariant : Obligations.ResetMeetsTheInvariant := resetEdge_inv State.reset

end Sys2Proof.Machine
end
